-- ==== Sys2Proof/Word.lean ====
section
/-! DEFINITION. The two word types of the block and its byte sequences (spec/00_scope.md R8, R9, R10).
All values are unsigned; bit 0 is the least significant bit. -/

namespace Sys2Proof

/-- `u8`: one byte, the unit of every wire format (R9, R60). -/
abbrev Byte := BitVec 8

/-- `u16` (R9): transaction ids, lengths, addresses, counts, values and the CRC. -/
abbrev U16 := BitVec 16

/-- `bytes` (R10): a finite byte sequence, the first byte on the wire first. -/
abbrev Bytes := List Byte

end Sys2Proof
end

