-- ==== Sys2Proof/Config.lean ====
section
/-! DEFINITION. What is fixed when a block is made (spec/00_scope.md R8, 10_state.md R23, 70_reset_and_hazards.md R222):
the modes of the builders, the framing, direction and owner of the streams, the buffer capacity and the exception-code
quirk. No operation writes any of it. A configuration is plain data, and every statement about the block is about every
configuration. -/

namespace Sys2Proof

/-- `MODE[b]` (R8, R23): `TCP` is 0, `RTU` is 1. -/
inductive Mode where
  | tcp
  | rtu
  deriving DecidableEq, Repr

/-- `PROTO[s]` (R8, R23): `TCP` is 0, `RTU` is 1. -/
inductive Proto where
  | tcp
  | rtu
  deriving DecidableEq, Repr

/-- `DIR[s]` (R8, R14, R23): `REQ` (0) decodes requests, `RSP` (1) decodes responses. -/
inductive Dir where
  | req
  | rsp
  deriving DecidableEq, Repr

/-- A host agent's identifier (R23). The spec gives it no form: a natural number is the model's choice (log 2). -/
abbrev Agent := Nat

/-- The configuration of one receive stream (R23). -/
structure StreamConfig where
  proto : Proto
  dir   : Dir
  owner : Agent
  deriving DecidableEq, Repr

/-- The implementation parameters of R8. `N_BUILDERS` is the length of `modes`, `N_STREAMS` the length of `streams`;
`rxCapacity = none` is the unbounded capacity. -/
structure Config where
  modes       : List Mode
  streams     : List StreamConfig
  rxCapacity  : Option Nat
  refExcQuirk : Bool
  deriving DecidableEq, Repr

/-- `N_BUILDERS` (R8). -/
abbrev Config.nBuilders (c : Config) : Nat := c.modes.length

/-- `N_STREAMS` (R8). -/
abbrev Config.nStreams (c : Config) : Nat := c.streams.length

/-- The legal values of R8: at least one builder and one stream, and a capacity of at least 268 where it is finite. -/
def Config.wf (c : Config) : Bool :=
  decide (0 < c.nBuilders) && decide (0 < c.nStreams) &&
    match c.rxCapacity with
    | none => true
    | some n => decide (268 ≤ n)

/-- The configuration of `State.reset`. One builder, one stream, unbounded capacity and no quirk are R8's defaults.
R222 gives MODE, PROTO, DIR and OWNER no default: the value whose code is 0 stands for each.
DESIGN CHOICE (log 1; unsafe): no statement rests on these four values. -/
def Config.default : Config :=
  { modes := [.tcp], streams := [{ proto := .tcp, dir := .req, owner := 0 }], rxCapacity := none, refExcQuirk := false }

end Sys2Proof
end

