-- ==== Sys2Proof/Syntax.lean ====
section
/-! DEFINITION. The frame values the operations exchange (spec/10_state.md R29 to R31), the outcomes of a decode
(spec/60_exceptions.md R200, R202), the phases of a stream (spec/44_rx_stream.md R185), an operation as a host agent
issues it (spec/30_encoding.md R90), and `Instr`, one constructor per row of spec/opcode_table.json. -/

namespace Sys2Proof

/-- `Function` (R29, R62). -/
inductive Fn where
  | readCoils
  | readDiscreteInputs
  | readMultipleHoldingRegisters
  | readInputRegisters
  | writeSingleCoil
  | writeSingleHoldingRegister
  | writeMultipleCoils
  | writeMultipleHoldingRegisters
  deriving DecidableEq, Repr

/-- `Exception` (R29, R64): the five reasons a responder gives. -/
inductive Exc where
  | illegalFunction
  | illegalDataAddress
  | illegalDataValue
  | slaveDeviceFailure
  | acknowledge
  deriving DecidableEq, Repr

/-- The function groups of R29. -/
inductive Group where
  | read
  | wsingle
  | wmulti
  deriving DecidableEq, Repr

/-- The two kinds of frame (R13, R32). -/
inductive Kind where
  | request
  | response
  deriving DecidableEq, Repr

/-- `Head` (R30). `function` holds the original function in an exception response. -/
structure Head where
  transactionId : U16
  protocolId    : U16
  length        : U16
  unitId        : Byte
  function      : Fn
  isException   : Bool
  deriving DecidableEq, Repr

/-- The body shapes of R31. `byte_count` is never stored: it is the length of `values`. -/
inductive Body where
  | readReq (firstAddress count : U16)
  | writeSingle (address value : U16)
  | writeMultiReq (firstAddress count : U16) (values : Bytes)
  | readRsp (values : Bytes)
  | writeMultiRsp (firstAddress count : U16)
  | exceptionRsp (exception : Exc)
  deriving DecidableEq, Repr

/-- The names of the body shapes of R31. -/
inductive Shape where
  | readReq
  | writeSingle
  | writeMultiReq
  | readRsp
  | writeMultiRsp
  | exceptionRsp
  deriving DecidableEq, Repr

/-- A Request or a Response: a pair of head and body (R32). -/
structure Frame where
  kind : Kind
  head : Head
  body : Body
  deriving DecidableEq, Repr

/-- The error kinds of R202, each with the information it records (D31). -/
inductive CodecError where
  | invalidFunctionCode (functionByte : Byte)
  | invalidChecksum (received : U16)
  | unrecognizedExceptionCode (code : Byte)
  | lengthMismatch (lengthField : U16)
  deriving DecidableEq, Repr

/-- What a body can fail to parse as (R74): its size `n` is not its layout's, or its exception code is unknown. -/
inductive BodyError where
  | lengthMismatch (n : Nat)
  | unrecognizedExceptionCode (code : Byte)
  deriving DecidableEq, Repr

/-- The outcome of a decode (R200): a frame and the number of bytes it occupies, the call for more input, or an error. -/
inductive DecodeOutcome where
  | frame (v : Frame) (n : Nat)
  | incomplete
  | error (e : CodecError)
  deriving DecidableEq, Repr

/-- The reassembly phases of R185. -/
inductive Phase where
  | awaitHead
  | awaitCount
  | awaitBody
  | awaitCrc
  | complete
  | error
  deriving DecidableEq, Repr

/-- Where an issue is presented: on the block's operation port, with an operation code of R90; or as a byte of a frame
being decoded: a function byte met in a direction (R63), or the code byte of an exception body (R64).
DESIGN CHOICE (log 8; safe). -/
inductive Port where
  | operation
  | functionByte (dir : Dir)
  | exceptionByte
  deriving DecidableEq, Repr

/-- One operand as it reaches the port: a natural number, a byte sequence, or a frame value (R3: typed arguments).
DESIGN CHOICE (log 7). -/
inductive Operand where
  | num (n : Nat)
  | bytes (bs : Bytes)
  | frame (fr : Frame)
  deriving DecidableEq, Repr

/-- One operation as a host agent issues it: who, where, the 8-bit code, the operands. -/
structure Issue where
  agent    : Agent
  port     : Port
  code     : Byte
  operands : List Operand
  deriving DecidableEq, Repr

/-- The instructions: the 31 operations of R90 in the order of their codes, then the wire rows of R62 to R64.
`b` is a builder index, `s` a stream index; `body` are the body bytes met so far after a function byte. -/
inductive Instr where
  | crcCompute (bs : Bytes)
  | crcCheck (bs : Bytes) (candidate : U16)
  | buildReqReadCoils (b : Nat) (unit : Byte) (firstAddress count : U16)
  | buildReqReadDiscreteInputs (b : Nat) (unit : Byte) (firstAddress count : U16)
  | buildReqReadHoldingRegisters (b : Nat) (unit : Byte) (firstAddress count : U16)
  | buildReqReadInputRegisters (b : Nat) (unit : Byte) (firstAddress count : U16)
  | buildReqWriteSingleCoil (b : Nat) (unit : Byte) (address value : U16)
  | buildReqWriteSingleRegister (b : Nat) (unit : Byte) (address value : U16)
  | buildReqWriteMultipleCoils (b : Nat) (unit : Byte) (firstAddress count : U16) (values : Bytes)
  | buildReqWriteMultipleRegisters (b : Nat) (unit : Byte) (firstAddress count : U16) (values : Bytes)
  | buildRspReadCoils (b : Nat) (unit : Byte) (values : Bytes)
  | buildRspReadDiscreteInputs (b : Nat) (unit : Byte) (values : Bytes)
  | buildRspReadHoldingRegisters (b : Nat) (unit : Byte) (values : Bytes)
  | buildRspReadInputRegisters (b : Nat) (unit : Byte) (values : Bytes)
  | buildRspWriteSingleCoil (b : Nat) (unit : Byte) (address value : U16)
  | buildRspWriteSingleRegister (b : Nat) (unit : Byte) (address value : U16)
  | buildRspWriteMultipleCoils (b : Nat) (unit : Byte) (firstAddress count : U16)
  | buildRspWriteMultipleRegisters (b : Nat) (unit : Byte) (firstAddress count : U16)
  | buildException (b : Nat) (unit : Byte) (function : Fn) (exception : Exc)
  | encodeTcp (fr : Frame)
  | encodeRtu (fr : Frame)
  | decodeTcpReq (bs : Bytes)
  | decodeTcpRsp (bs : Bytes)
  | decodeRtuReq (bs : Bytes)
  | decodeRtuRsp (bs : Bytes)
  | rxPush (s : Nat) (bs : Bytes)
  | rxDecode (s : Nat)
  | rxDiscard (s n : Nat)
  | rxFlush (s : Nat)
  | rxStatus (s : Nat)
  | reset
  | wireReqReadCoils (body : Bytes)
  | wireReqReadDiscreteInputs (body : Bytes)
  | wireReqReadMultipleHoldingRegisters (body : Bytes)
  | wireReqReadInputRegisters (body : Bytes)
  | wireReqWriteSingleCoil (body : Bytes)
  | wireReqWriteSingleHoldingRegister (body : Bytes)
  | wireReqWriteMultipleCoils (body : Bytes)
  | wireReqWriteMultipleHoldingRegisters (body : Bytes)
  | wireRspReadCoils (body : Bytes)
  | wireRspReadDiscreteInputs (body : Bytes)
  | wireRspReadMultipleHoldingRegisters (body : Bytes)
  | wireRspReadInputRegisters (body : Bytes)
  | wireRspWriteSingleCoil (body : Bytes)
  | wireRspWriteSingleHoldingRegister (body : Bytes)
  | wireRspWriteMultipleCoils (body : Bytes)
  | wireRspWriteMultipleHoldingRegisters (body : Bytes)
  | wireRspExceptionReadCoils (body : Bytes)
  | wireRspExceptionReadDiscreteInputs (body : Bytes)
  | wireRspExceptionReadMultipleHoldingRegisters (body : Bytes)
  | wireRspExceptionReadInputRegisters (body : Bytes)
  | wireRspExceptionWriteSingleCoil (body : Bytes)
  | wireRspExceptionWriteSingleHoldingRegister (body : Bytes)
  | wireRspExceptionWriteMultipleCoils (body : Bytes)
  | wireRspExceptionWriteMultipleHoldingRegisters (body : Bytes)
  | wireExceptionCodeIllegalFunction
  | wireExceptionCodeIllegalDataAddress
  | wireExceptionCodeIllegalDataValue
  | wireExceptionCodeSlaveDeviceFailure
  | wireExceptionCodeAcknowledge
  deriving DecidableEq, Repr

end Sys2Proof
end

