-- ==== Sys2Proof/Machine/Operands.lean ====
section
/-! DEFINITION. Operand forms: byte order and slices (spec/00_scope.md R10, spec/20_memory.md R42, R43), the wire codes of
functions and exceptions (spec/30_encoding.md R62, R64), body shapes and lengths (spec/10_state.md R31), assembling and
parsing a body (R72 to R74), and the well-formedness of a frame value (R32). -/

namespace Sys2Proof

/-! ## Byte order -/

/-- `be16(v)`: a u16 high byte first (R10, R42). -/
def be16 (v : U16) : Bytes := [v.extractLsb' 8 8, v.extractLsb' 0 8]

/-- `le16(v)`: a u16 low byte first (R10, R43). -/
def le16 (v : U16) : Bytes := [v.extractLsb' 0 8, v.extractLsb' 8 8]

/-- `bs[i]` (R10). It is defined only for `i < |bs|`; every use stands behind a length check, so the 0 that stands for
a byte that is not there is never read (DESIGN CHOICE, log 16; safe). -/
def byteAt (bs : Bytes) (i : Nat) : Byte := bs.getD i 0

/-- `rd_be16(bs, i)`: `bs[i]·256 + bs[i+1]` (R10). -/
def rdBe16 (bs : Bytes) (i : Nat) : U16 := byteAt bs i ++ byteAt bs (i + 1)

/-- `rd_le16(bs, i)`: `bs[i] + bs[i+1]·256` (R10). -/
def rdLe16 (bs : Bytes) (i : Nat) : U16 := byteAt bs (i + 1) ++ byteAt bs i

/-- `bs[i..j)` (R10): the bytes at offsets `i` to `j-1`. -/
def slice (bs : Bytes) (i j : Nat) : Bytes := (bs.drop i).take (j - i)

/-! ## Codes -/

/-- `code(f)`: the wire code of a function (R29, R62). -/
def Fn.code : Fn → Byte
  | .readCoils => 0x01
  | .readDiscreteInputs => 0x02
  | .readMultipleHoldingRegisters => 0x03
  | .readInputRegisters => 0x04
  | .writeSingleCoil => 0x05
  | .writeSingleHoldingRegister => 0x06
  | .writeMultipleCoils => 0x0F
  | .writeMultipleHoldingRegisters => 0x10

/-- `fn_decode(c)`: the function whose code is `c`, or none (R62). -/
def fnDecode (c : Byte) : Option Fn :=
  if c = 0x01 then some .readCoils
  else if c = 0x02 then some .readDiscreteInputs
  else if c = 0x03 then some .readMultipleHoldingRegisters
  else if c = 0x04 then some .readInputRegisters
  else if c = 0x05 then some .writeSingleCoil
  else if c = 0x06 then some .writeSingleHoldingRegister
  else if c = 0x0F then some .writeMultipleCoils
  else if c = 0x10 then some .writeMultipleHoldingRegisters
  else none

/-- `excode(e)`: the wire code of an exception (R29, R64). -/
def Exc.code : Exc → Byte
  | .illegalFunction => 0x01
  | .illegalDataAddress => 0x02
  | .illegalDataValue => 0x03
  | .slaveDeviceFailure => 0x04
  | .acknowledge => 0x05

/-- `exc_decode(x)` (R64): with the quirk, code 0x01 gives IllegalDataValue; otherwise the inverse of `excode`. -/
def excDecode (quirk : Bool) (x : Byte) : Option Exc :=
  if quirk = true ∧ x = 0x01 then some .illegalDataValue
  else if x = 0x01 then some .illegalFunction
  else if x = 0x02 then some .illegalDataAddress
  else if x = 0x03 then some .illegalDataValue
  else if x = 0x04 then some .slaveDeviceFailure
  else if x = 0x05 then some .acknowledge
  else none

/-- The group of a function (R29, R62). -/
def Fn.group : Fn → Group
  | .readCoils => .read
  | .readDiscreteInputs => .read
  | .readMultipleHoldingRegisters => .read
  | .readInputRegisters => .read
  | .writeSingleCoil => .wsingle
  | .writeSingleHoldingRegister => .wsingle
  | .writeMultipleCoils => .wmulti
  | .writeMultipleHoldingRegisters => .wmulti

/-! ## Bodies -/

/-- The `values` of a body, empty for a shape that has none (R31). -/
def Body.values : Body → Bytes
  | .readReq _ _ => []
  | .writeSingle _ _ => []
  | .writeMultiReq _ _ vs => vs
  | .readRsp vs => vs
  | .writeMultiRsp _ _ => []
  | .exceptionRsp _ => []

/-- The encoded length `blen` of a body (R31). -/
def Body.blen : Body → Nat
  | .readReq _ _ => 4
  | .writeSingle _ _ => 4
  | .writeMultiReq _ _ vs => 5 + vs.length
  | .readRsp vs => 1 + vs.length
  | .writeMultiRsp _ _ => 4
  | .exceptionRsp _ => 1

/-- The shape of a body (R31). -/
def Body.shape : Body → Shape
  | .readReq _ _ => .readReq
  | .writeSingle _ _ => .writeSingle
  | .writeMultiReq _ _ _ => .writeMultiReq
  | .readRsp _ => .readRsp
  | .writeMultiRsp _ _ => .writeMultiRsp
  | .exceptionRsp _ => .exceptionRsp

/-- The shape the table of R31 assigns to a kind, a function and the exception flag (R32(a)). -/
def shapeFor (kind : Kind) (f : Fn) (exc : Bool) : Shape :=
  match kind, exc, f.group with
  | .request, _, .read => .readReq
  | .request, _, .wsingle => .writeSingle
  | .request, _, .wmulti => .writeMultiReq
  | .response, true, _ => .exceptionRsp
  | .response, false, .read => .readRsp
  | .response, false, .wsingle => .writeSingle
  | .response, false, .wmulti => .writeMultiRsp

/-- One byte holding the number of value bytes (R85: `byte_count` is always `|values|`). -/
def byteCount (vs : Bytes) : Byte := BitVec.ofNat 8 vs.length

/-- `enc_body(body)` (R73). -/
def encBody : Body → Bytes
  | .readReq a c => be16 a ++ be16 c
  | .writeSingle a v => be16 a ++ be16 v
  | .writeMultiReq a c vs => be16 a ++ be16 c ++ [byteCount vs] ++ vs
  | .readRsp vs => [byteCount vs] ++ vs
  | .writeMultiRsp a c => be16 a ++ be16 c
  | .exceptionRsp e => [e.code]

/-- `parse_body(dir, f, exc, bd)` (R74). -/
def parseBody (quirk : Bool) (dir : Dir) (f : Fn) (exc : Bool) (bd : Bytes) : Except BodyError Body :=
  if exc = true then
    if bd.length ≠ 1 then .error (.lengthMismatch bd.length)
    else
      match excDecode quirk (byteAt bd 0) with
      | some e => .ok (.exceptionRsp e)
      | none => .error (.unrecognizedExceptionCode (byteAt bd 0))
  else
    match dir, f.group with
    | _, .wsingle =>
      if bd.length ≠ 4 then .error (.lengthMismatch bd.length)
      else .ok (.writeSingle (rdBe16 bd 0) (rdBe16 bd 2))
    | .req, .read =>
      if bd.length ≠ 4 then .error (.lengthMismatch bd.length)
      else .ok (.readReq (rdBe16 bd 0) (rdBe16 bd 2))
    | .req, .wmulti =>
      if bd.length < 5 ∨ bd.length ≠ 5 + (byteAt bd 4).toNat then .error (.lengthMismatch bd.length)
      else .ok (.writeMultiReq (rdBe16 bd 0) (rdBe16 bd 2) (slice bd 5 bd.length))
    | .rsp, .read =>
      if bd.length < 1 ∨ bd.length ≠ 1 + (byteAt bd 0).toNat then .error (.lengthMismatch bd.length)
      else .ok (.readRsp (slice bd 1 bd.length))
    | .rsp, .wmulti =>
      if bd.length ≠ 4 then .error (.lengthMismatch bd.length)
      else .ok (.writeMultiRsp (rdBe16 bd 0) (rdBe16 bd 2))

/-! ## Frame values -/

/-- The kind a decode in a direction gives (R14). -/
def kindOf : Dir → Kind
  | .req => .request
  | .rsp => .response

/-- The direction that decodes a kind (R14). -/
def dirOf : Kind → Dir
  | .request => .req
  | .response => .rsp

/-- `length = 2 + blen` as the u16 of the head (R71, R113). -/
def lengthFor (body : Body) : U16 := BitVec.ofNat 16 (2 + body.blen)

/-- `WF(kind, head, body)` (R32): (a) the shape, (b) no exception request, (c) at most 255 values, (d) the length. -/
def Frame.wf (fr : Frame) : Bool :=
  decide (fr.body.shape = shapeFor fr.kind fr.head.function fr.head.isException) &&
  decide (fr.kind = .request → fr.head.isException = false) &&
  decide (fr.body.values.length ≤ 255) &&
  decide (fr.head.length.toNat = 2 + fr.body.blen)

end Sys2Proof
end

