-- ==== Sys2Proof/Machine/Flags.lean ====
section
/-! DEFINITION. The one flag of the block: `is_exception`, bit 7 of the function byte (spec/10_state.md R22, spec/30_encoding.md
R61). The encoders write it into the function byte, the decoders read it from there (R63). -/

namespace Sys2Proof

/-- `fbyte(h)` (R63): the function's code, with bit 7 set for an exception response. -/
def fbyte (h : Head) : Byte := h.function.code ||| (if h.isException then 0x80 else 0x00)

/-- Bit 7 of a function byte (R61, R63). -/
def excFlag (fb : Byte) : Bool := fb.getLsbD 7

/-- Bits 6:0 of a function byte (R61, R63). -/
def baseCode (fb : Byte) : Byte := fb &&& 0x7F

/-- `classify(dir, fb)` (R63): the function and the exception flag, or InvalidFunctionCode with the function byte. -/
def classify (dir : Dir) (fb : Byte) : Except CodecError (Fn × Bool) :=
  match fnDecode (baseCode fb) with
  | none => .error (.invalidFunctionCode fb)
  | some f =>
    if excFlag fb = true ∧ dir = .req then .error (.invalidFunctionCode fb)
    else .ok (f, excFlag fb)

end Sys2Proof
end

