-- ==== Sys2Proof/Decode.lean ====
section
/-! DEFINITION. Decoding an issue into an instruction, and the encoder beside it. An operation is an 8-bit code (spec/30_encoding.md
R90) and its operands in the order of R90's table; a byte of a frame is classified by R63 and R64. The decoder is total: what
it cannot read it rejects by name (R91, R65, R66). The form of an operand list is the model's (DESIGN CHOICE, log 7). -/

namespace Sys2Proof

/-- Why the decoder rejects an issue. `unknownOperation` and `operandOutOfRange` are the refusals of R91 and R210;
`wireError` is the error outcome R63 or R64 gives a byte of a frame. -/
inductive Reject where
  | unknownOperation
  | operandOutOfRange
  | wireError (e : CodecError)
  deriving DecidableEq, Repr

/-! ## Operands -/

/-- A u8 operand: none for a number outside 0..255 (R91). -/
def asU8 (n : Nat) : Option Byte := if n < 256 then some (BitVec.ofNat 8 n) else none

/-- A u16 operand: none for a number outside 0..65535 (R91). -/
def asU16 (n : Nat) : Option U16 := if n < 65536 then some (BitVec.ofNat 16 n) else none

/-- The number that stands for a function operand: its place in the list of R29 (DESIGN CHOICE, log 7). -/
def Fn.index : Fn → Nat
  | .readCoils => 0
  | .readDiscreteInputs => 1
  | .readMultipleHoldingRegisters => 2
  | .readInputRegisters => 3
  | .writeSingleCoil => 4
  | .writeSingleHoldingRegister => 5
  | .writeMultipleCoils => 6
  | .writeMultipleHoldingRegisters => 7

/-- A Function operand: none for a number outside the enumeration's constructors (R210). -/
def asFn : Nat → Option Fn
  | 0 => some .readCoils
  | 1 => some .readDiscreteInputs
  | 2 => some .readMultipleHoldingRegisters
  | 3 => some .readInputRegisters
  | 4 => some .writeSingleCoil
  | 5 => some .writeSingleHoldingRegister
  | 6 => some .writeMultipleCoils
  | 7 => some .writeMultipleHoldingRegisters
  | _ => none

/-- The number that stands for an exception operand: its place in the list of R29 (DESIGN CHOICE, log 7). -/
def Exc.index : Exc → Nat
  | .illegalFunction => 0
  | .illegalDataAddress => 1
  | .illegalDataValue => 2
  | .slaveDeviceFailure => 3
  | .acknowledge => 4

/-- An Exception operand: none for a number outside the enumeration's constructors (R210). -/
def asExc : Nat → Option Exc
  | 0 => some .illegalFunction
  | 1 => some .illegalDataAddress
  | 2 => some .illegalDataValue
  | 3 => some .slaveDeviceFailure
  | 4 => some .acknowledge
  | _ => none

/-- Operands `b, unit, u16, u16` (R90). -/
def twoWordForm (k : Nat → Byte → U16 → U16 → Instr) : List Operand → Option Instr
  | [.num b, .num u, .num x, .num y] => do return k b (← asU8 u) (← asU16 x) (← asU16 y)
  | _ => none

/-- Operands `b, unit, first_address, count, values` (R90). -/
def twoWordValuesForm (k : Nat → Byte → U16 → U16 → Bytes → Instr) : List Operand → Option Instr
  | [.num b, .num u, .num x, .num y, .bytes vs] => do return k b (← asU8 u) (← asU16 x) (← asU16 y) vs
  | _ => none

/-- Operands `b, unit, values` (R90). -/
def valuesForm (k : Nat → Byte → Bytes → Instr) : List Operand → Option Instr
  | [.num b, .num u, .bytes vs] => do return k b (← asU8 u) vs
  | _ => none

/-- Operands `b, unit, function, exception` (R90). -/
def exceptionForm (k : Nat → Byte → Fn → Exc → Instr) : List Operand → Option Instr
  | [.num b, .num u, .num f, .num e] => do return k b (← asU8 u) (← asFn f) (← asExc e)
  | _ => none

/-- One byte-sequence operand (R90). -/
def bytesForm (k : Bytes → Instr) : List Operand → Option Instr
  | [.bytes bs] => some (k bs)
  | _ => none

/-- Operands `bytes, u16` (R90, CRC_CHECK). -/
def bytesWordForm (k : Bytes → U16 → Instr) : List Operand → Option Instr
  | [.bytes bs, .num x] => do return k bs (← asU16 x)
  | _ => none

/-- One frame operand (R90). -/
def frameForm (k : Frame → Instr) : List Operand → Option Instr
  | [.frame fr] => some (k fr)
  | _ => none

/-- One stream operand (R90). -/
def streamForm (k : Nat → Instr) : List Operand → Option Instr
  | [.num s] => some (k s)
  | _ => none

/-- A stream and a byte sequence (R90, RX_PUSH). An empty sequence decodes: its refusal (R91) is the meaning's, after the
stream and the owner are looked at (order of refusals: DESIGN CHOICE, log 10). -/
def streamBytesForm (k : Nat → Bytes → Instr) : List Operand → Option Instr
  | [.num s, .bytes bs] => some (k s bs)
  | _ => none

/-- A stream and a natural number (R90, RX_DISCARD). -/
def streamNumForm (k : Nat → Nat → Instr) : List Operand → Option Instr
  | [.num s, .num n] => some (k s n)
  | _ => none

/-- No operand (R90, RESET). -/
def noneForm (i : Instr) : List Operand → Option Instr
  | [] => some i
  | _ => none

/-! ## Operation codes -/

/-- The table of R90: for a code, how its operands make an instruction; none for a reserved code (R91). -/
def operationForm (code : Byte) : Option (List Operand → Option Instr) :=
  match code.toNat with
  | 0x01 => some (bytesForm .crcCompute)
  | 0x02 => some (bytesWordForm .crcCheck)
  | 0x10 => some (twoWordForm .buildReqReadCoils)
  | 0x11 => some (twoWordForm .buildReqReadDiscreteInputs)
  | 0x12 => some (twoWordForm .buildReqReadHoldingRegisters)
  | 0x13 => some (twoWordForm .buildReqReadInputRegisters)
  | 0x14 => some (twoWordForm .buildReqWriteSingleCoil)
  | 0x15 => some (twoWordForm .buildReqWriteSingleRegister)
  | 0x16 => some (twoWordValuesForm .buildReqWriteMultipleCoils)
  | 0x17 => some (twoWordValuesForm .buildReqWriteMultipleRegisters)
  | 0x18 => some (valuesForm .buildRspReadCoils)
  | 0x19 => some (valuesForm .buildRspReadDiscreteInputs)
  | 0x1A => some (valuesForm .buildRspReadHoldingRegisters)
  | 0x1B => some (valuesForm .buildRspReadInputRegisters)
  | 0x1C => some (twoWordForm .buildRspWriteSingleCoil)
  | 0x1D => some (twoWordForm .buildRspWriteSingleRegister)
  | 0x1E => some (twoWordForm .buildRspWriteMultipleCoils)
  | 0x1F => some (twoWordForm .buildRspWriteMultipleRegisters)
  | 0x20 => some (exceptionForm .buildException)
  | 0x30 => some (frameForm .encodeTcp)
  | 0x31 => some (frameForm .encodeRtu)
  | 0x40 => some (bytesForm .decodeTcpReq)
  | 0x41 => some (bytesForm .decodeTcpRsp)
  | 0x42 => some (bytesForm .decodeRtuReq)
  | 0x43 => some (bytesForm .decodeRtuRsp)
  | 0x50 => some (streamBytesForm .rxPush)
  | 0x51 => some (streamForm .rxDecode)
  | 0x52 => some (streamNumForm .rxDiscard)
  | 0x53 => some (streamForm .rxFlush)
  | 0x54 => some (streamForm .rxStatus)
  | 0x60 => some (noneForm .reset)
  | _ => none

/-- An operation on the operation port (R90, R91). -/
def decodeOperation (code : Byte) (operands : List Operand) : Except Reject Instr :=
  match operationForm code with
  | none => .error .unknownOperation
  | some form =>
    match form operands with
    | none => .error .operandOutOfRange
    | some i => .ok i

/-! ## Bytes of a frame -/

/-- The wire row of a classified function byte (R62, R63). -/
def wireInstr : Dir → Fn → Bool → Bytes → Instr
  | .req, .readCoils, _ => .wireReqReadCoils
  | .req, .readDiscreteInputs, _ => .wireReqReadDiscreteInputs
  | .req, .readMultipleHoldingRegisters, _ => .wireReqReadMultipleHoldingRegisters
  | .req, .readInputRegisters, _ => .wireReqReadInputRegisters
  | .req, .writeSingleCoil, _ => .wireReqWriteSingleCoil
  | .req, .writeSingleHoldingRegister, _ => .wireReqWriteSingleHoldingRegister
  | .req, .writeMultipleCoils, _ => .wireReqWriteMultipleCoils
  | .req, .writeMultipleHoldingRegisters, _ => .wireReqWriteMultipleHoldingRegisters
  | .rsp, .readCoils, false => .wireRspReadCoils
  | .rsp, .readDiscreteInputs, false => .wireRspReadDiscreteInputs
  | .rsp, .readMultipleHoldingRegisters, false => .wireRspReadMultipleHoldingRegisters
  | .rsp, .readInputRegisters, false => .wireRspReadInputRegisters
  | .rsp, .writeSingleCoil, false => .wireRspWriteSingleCoil
  | .rsp, .writeSingleHoldingRegister, false => .wireRspWriteSingleHoldingRegister
  | .rsp, .writeMultipleCoils, false => .wireRspWriteMultipleCoils
  | .rsp, .writeMultipleHoldingRegisters, false => .wireRspWriteMultipleHoldingRegisters
  | .rsp, .readCoils, true => .wireRspExceptionReadCoils
  | .rsp, .readDiscreteInputs, true => .wireRspExceptionReadDiscreteInputs
  | .rsp, .readMultipleHoldingRegisters, true => .wireRspExceptionReadMultipleHoldingRegisters
  | .rsp, .readInputRegisters, true => .wireRspExceptionReadInputRegisters
  | .rsp, .writeSingleCoil, true => .wireRspExceptionWriteSingleCoil
  | .rsp, .writeSingleHoldingRegister, true => .wireRspExceptionWriteSingleHoldingRegister
  | .rsp, .writeMultipleCoils, true => .wireRspExceptionWriteMultipleCoils
  | .rsp, .writeMultipleHoldingRegisters, true => .wireRspExceptionWriteMultipleHoldingRegisters

/-- The wire row of an exception code (R64). -/
def wireExcInstr : Exc → Instr
  | .illegalFunction => .wireExceptionCodeIllegalFunction
  | .illegalDataAddress => .wireExceptionCodeIllegalDataAddress
  | .illegalDataValue => .wireExceptionCodeIllegalDataValue
  | .slaveDeviceFailure => .wireExceptionCodeSlaveDeviceFailure
  | .acknowledge => .wireExceptionCodeAcknowledge

/-- A function byte met in a direction, with the body bytes buffered after it (R63, R65). -/
def decodeFunctionByte (dir : Dir) (fb : Byte) (operands : List Operand) : Except Reject Instr :=
  match classify dir fb with
  | .error e => .error (.wireError e)
  | .ok (f, exc) =>
    match operands with
    | [.bytes body] => .ok (wireInstr dir f exc body)
    | _ => .error .operandOutOfRange

/-- The code byte of an exception body (R64, R66): which row it is does not depend on the quirk, which the meaning reads. -/
def decodeExceptionByte (x : Byte) (operands : List Operand) : Except Reject Instr :=
  match excDecode false x with
  | none => .error (.wireError (.unrecognizedExceptionCode x))
  | some e =>
    match operands with
    | [] => .ok (wireExcInstr e)
    | _ => .error .operandOutOfRange

/-- The decoder: total on every issue. -/
def decode (i : Issue) : Except Reject Instr :=
  match i.port with
  | .operation => decodeOperation i.code i.operands
  | .functionByte dir => decodeFunctionByte dir i.code i.operands
  | .exceptionByte => decodeExceptionByte i.code i.operands

/-! ## The encoder -/

/-- An operation issued by `a` with a code and operands. -/
def opIssue (a : Agent) (code : Byte) (operands : List Operand) : Issue :=
  { agent := a, port := .operation, code := code, operands := operands }

/-- Operands `b, unit, x, y`. -/
def twoWordOperands (b : Nat) (u : Byte) (x y : U16) : List Operand :=
  [.num b, .num u.toNat, .num x.toNat, .num y.toNat]

/-- A function byte met in direction `dir`, with body bytes after it. -/
def fnIssue (a : Agent) (dir : Dir) (fb : Byte) (body : Bytes) : Issue :=
  { agent := a, port := .functionByte dir, code := fb, operands := [.bytes body] }

/-- An exception code byte. -/
def excIssue (a : Agent) (x : Byte) : Issue :=
  { agent := a, port := .exceptionByte, code := x, operands := [] }

/-- The issue that stands for an instruction: its code of the opcode table and its operands in R90's order. -/
def encode (a : Agent) : Instr → Issue
  | .crcCompute bs => opIssue a 0x01 [.bytes bs]
  | .crcCheck bs x => opIssue a 0x02 [.bytes bs, .num x.toNat]
  | .buildReqReadCoils b u x y => opIssue a 0x10 (twoWordOperands b u x y)
  | .buildReqReadDiscreteInputs b u x y => opIssue a 0x11 (twoWordOperands b u x y)
  | .buildReqReadHoldingRegisters b u x y => opIssue a 0x12 (twoWordOperands b u x y)
  | .buildReqReadInputRegisters b u x y => opIssue a 0x13 (twoWordOperands b u x y)
  | .buildReqWriteSingleCoil b u x y => opIssue a 0x14 (twoWordOperands b u x y)
  | .buildReqWriteSingleRegister b u x y => opIssue a 0x15 (twoWordOperands b u x y)
  | .buildReqWriteMultipleCoils b u x y vs => opIssue a 0x16 (twoWordOperands b u x y ++ [.bytes vs])
  | .buildReqWriteMultipleRegisters b u x y vs => opIssue a 0x17 (twoWordOperands b u x y ++ [.bytes vs])
  | .buildRspReadCoils b u vs => opIssue a 0x18 [.num b, .num u.toNat, .bytes vs]
  | .buildRspReadDiscreteInputs b u vs => opIssue a 0x19 [.num b, .num u.toNat, .bytes vs]
  | .buildRspReadHoldingRegisters b u vs => opIssue a 0x1A [.num b, .num u.toNat, .bytes vs]
  | .buildRspReadInputRegisters b u vs => opIssue a 0x1B [.num b, .num u.toNat, .bytes vs]
  | .buildRspWriteSingleCoil b u x y => opIssue a 0x1C (twoWordOperands b u x y)
  | .buildRspWriteSingleRegister b u x y => opIssue a 0x1D (twoWordOperands b u x y)
  | .buildRspWriteMultipleCoils b u x y => opIssue a 0x1E (twoWordOperands b u x y)
  | .buildRspWriteMultipleRegisters b u x y => opIssue a 0x1F (twoWordOperands b u x y)
  | .buildException b u f e => opIssue a 0x20 [.num b, .num u.toNat, .num f.index, .num e.index]
  | .encodeTcp fr => opIssue a 0x30 [.frame fr]
  | .encodeRtu fr => opIssue a 0x31 [.frame fr]
  | .decodeTcpReq bs => opIssue a 0x40 [.bytes bs]
  | .decodeTcpRsp bs => opIssue a 0x41 [.bytes bs]
  | .decodeRtuReq bs => opIssue a 0x42 [.bytes bs]
  | .decodeRtuRsp bs => opIssue a 0x43 [.bytes bs]
  | .rxPush s bs => opIssue a 0x50 [.num s, .bytes bs]
  | .rxDecode s => opIssue a 0x51 [.num s]
  | .rxDiscard s n => opIssue a 0x52 [.num s, .num n]
  | .rxFlush s => opIssue a 0x53 [.num s]
  | .rxStatus s => opIssue a 0x54 [.num s]
  | .reset => opIssue a 0x60 []
  | .wireReqReadCoils body => fnIssue a .req 0x01 body
  | .wireReqReadDiscreteInputs body => fnIssue a .req 0x02 body
  | .wireReqReadMultipleHoldingRegisters body => fnIssue a .req 0x03 body
  | .wireReqReadInputRegisters body => fnIssue a .req 0x04 body
  | .wireReqWriteSingleCoil body => fnIssue a .req 0x05 body
  | .wireReqWriteSingleHoldingRegister body => fnIssue a .req 0x06 body
  | .wireReqWriteMultipleCoils body => fnIssue a .req 0x0F body
  | .wireReqWriteMultipleHoldingRegisters body => fnIssue a .req 0x10 body
  | .wireRspReadCoils body => fnIssue a .rsp 0x01 body
  | .wireRspReadDiscreteInputs body => fnIssue a .rsp 0x02 body
  | .wireRspReadMultipleHoldingRegisters body => fnIssue a .rsp 0x03 body
  | .wireRspReadInputRegisters body => fnIssue a .rsp 0x04 body
  | .wireRspWriteSingleCoil body => fnIssue a .rsp 0x05 body
  | .wireRspWriteSingleHoldingRegister body => fnIssue a .rsp 0x06 body
  | .wireRspWriteMultipleCoils body => fnIssue a .rsp 0x0F body
  | .wireRspWriteMultipleHoldingRegisters body => fnIssue a .rsp 0x10 body
  | .wireRspExceptionReadCoils body => fnIssue a .rsp 0x81 body
  | .wireRspExceptionReadDiscreteInputs body => fnIssue a .rsp 0x82 body
  | .wireRspExceptionReadMultipleHoldingRegisters body => fnIssue a .rsp 0x83 body
  | .wireRspExceptionReadInputRegisters body => fnIssue a .rsp 0x84 body
  | .wireRspExceptionWriteSingleCoil body => fnIssue a .rsp 0x85 body
  | .wireRspExceptionWriteSingleHoldingRegister body => fnIssue a .rsp 0x86 body
  | .wireRspExceptionWriteMultipleCoils body => fnIssue a .rsp 0x8F body
  | .wireRspExceptionWriteMultipleHoldingRegisters body => fnIssue a .rsp 0x90 body
  | .wireExceptionCodeIllegalFunction => excIssue a 0x01
  | .wireExceptionCodeIllegalDataAddress => excIssue a 0x02
  | .wireExceptionCodeIllegalDataValue => excIssue a 0x03
  | .wireExceptionCodeSlaveDeviceFailure => excIssue a 0x04
  | .wireExceptionCodeAcknowledge => excIssue a 0x05

/-! ## One word of the opcode table -/

/-- The least frame value: every supplied field 0, `length` computed (R85: callers never supply it). -/
def zeroFrame : Frame :=
  { kind := .request,
    head := { transactionId := 0, protocolId := 0, length := 6, unitId := 0, function := .readCoils, isException := false },
    body := .readReq 0 0 }

/-- The operands of an operation whose operand words are all 0: a number is 0, a byte sequence empty (for RX_PUSH, whose
type is at least one byte, the single byte 0), a frame `zeroFrame` (DESIGN CHOICE, log 9). -/
def zeroOperands (code : Byte) : List Operand :=
  match code.toNat with
  | 0x01 => [.bytes []]
  | 0x02 => [.bytes [], .num 0]
  | 0x10 => [.num 0, .num 0, .num 0, .num 0]
  | 0x11 => [.num 0, .num 0, .num 0, .num 0]
  | 0x12 => [.num 0, .num 0, .num 0, .num 0]
  | 0x13 => [.num 0, .num 0, .num 0, .num 0]
  | 0x14 => [.num 0, .num 0, .num 0, .num 0]
  | 0x15 => [.num 0, .num 0, .num 0, .num 0]
  | 0x16 => [.num 0, .num 0, .num 0, .num 0, .bytes []]
  | 0x17 => [.num 0, .num 0, .num 0, .num 0, .bytes []]
  | 0x18 => [.num 0, .num 0, .bytes []]
  | 0x19 => [.num 0, .num 0, .bytes []]
  | 0x1A => [.num 0, .num 0, .bytes []]
  | 0x1B => [.num 0, .num 0, .bytes []]
  | 0x1C => [.num 0, .num 0, .num 0, .num 0]
  | 0x1D => [.num 0, .num 0, .num 0, .num 0]
  | 0x1E => [.num 0, .num 0, .num 0, .num 0]
  | 0x1F => [.num 0, .num 0, .num 0, .num 0]
  | 0x20 => [.num 0, .num 0, .num 0, .num 0]
  | 0x30 => [.frame zeroFrame]
  | 0x31 => [.frame zeroFrame]
  | 0x40 => [.bytes []]
  | 0x41 => [.bytes []]
  | 0x42 => [.bytes []]
  | 0x43 => [.bytes []]
  | 0x50 => [.num 0, .bytes [0]]
  | 0x51 => [.num 0]
  | 0x52 => [.num 0, .num 0]
  | 0x53 => [.num 0]
  | 0x54 => [.num 0]
  | 0x60 => []
  | _ => []

/-- Whether the decoder accepts an issue. -/
def accepts (i : Issue) : Bool :=
  match decode i with
  | .ok _ => true
  | .error _ => false

/-- The issue that the bits `w` of a row of the opcode table stand for, presented by agent `a`. Four kinds of row share the
256 byte values, so the byte is an operation where it is one, else a request function byte, else a response function byte,
else an exception code (DESIGN CHOICE, log 9). A word of more than 8 bits is no row's. -/
def tableIssue (a : Agent) (_nbits w : Nat) : Option Issue :=
  if w < 256 then
    [opIssue a (BitVec.ofNat 8 w) (zeroOperands (BitVec.ofNat 8 w)),
     fnIssue a .req (BitVec.ofNat 8 w) [],
     fnIssue a .rsp (BitVec.ofNat 8 w) [],
     excIssue a (BitVec.ofNat 8 w)].find? accepts
  else none

/-- The instruction the decoder reads from a row's word. -/
def decodeTableWord (nbits w : Nat) : Option Instr :=
  match tableIssue 0 nbits w with
  | none => none
  | some i =>
    match decode i with
    | .ok x => some x
    | .error _ => none

end Sys2Proof
end

