-- ==== Sys2Proof/Machine/Codec.lean ====
section
/-! DEFINITION. The pure functions of the block: the CRC (spec/40_crc.md R100, R101), the two encoders (spec/42_tcp_codec.md
R140, spec/43_rtu_codec.md R160), the RTU body length (spec/30_encoding.md R75 to R77), the two decoders (R141, R161) and the
reassembly phase (spec/44_rx_stream.md R185). They read no state. -/

namespace Sys2Proof

/-! ## CRC16 -/

/-- One round of the bit loop of R100. -/
def crcBit (c : U16) : U16 := if c.getLsbD 0 then (c >>> 1) ^^^ 0xA001 else c >>> 1

/-- The bit loop of R100, `n` rounds. -/
def crcRounds : Nat → U16 → U16
  | 0, c => c
  | n + 1, c => crcRounds n (crcBit c)

/-- `crc_step(c, x)` (R100). -/
def crcStep (c : U16) (x : Byte) : U16 := crcRounds 8 (c ^^^ x.setWidth 16)

/-- `crc16(bs)` (R101): a left fold from 0xFFFF, no final XOR. -/
def crc16 (bs : Bytes) : U16 := bs.foldl crcStep 0xFFFF

/-- `check(bytes, candidate)` (R103). -/
def crcCheck (bs : Bytes) (candidate : U16) : Bool := decide (crc16 bs = candidate)

/-! ## Encoders -/

/-- The TCP wire bytes of a frame value (R70, R140). The head is emitted as stored. -/
def tcpEncode (fr : Frame) : Bytes :=
  be16 fr.head.transactionId ++ be16 fr.head.protocolId ++ be16 fr.head.length ++
    [fr.head.unitId] ++ [fbyte fr.head] ++ encBody fr.body

/-- The bytes the RTU CRC covers: unit id, function byte, body (R80, R160). -/
def rtuPayload (fr : Frame) : Bytes := [fr.head.unitId] ++ [fbyte fr.head] ++ encBody fr.body

/-- The RTU wire bytes of a frame value (R80, R160): the payload and its CRC, low byte first. -/
def rtuEncode (fr : Frame) : Bytes := rtuPayload fr ++ le16 (crc16 (rtuPayload fr))

/-! ## TCP decode -/

/-- `tcp_decode(dir, bs)` (R141), its conditions in the order of R149. A LengthMismatch carries the length field (R202;
DEDUCED, log 11). -/
def tcpDecode (quirk : Bool) (dir : Dir) (bs : Bytes) : DecodeOutcome :=
  if bs.length < 8 then .incomplete
  else
    match classify dir (byteAt bs 7) with
    | .error e => .error e
    | .ok (f, exc) =>
      if (rdBe16 bs 4).toNat < 2 then .error (.lengthMismatch (rdBe16 bs 4))
      else if bs.length < 8 + ((rdBe16 bs 4).toNat - 2) then .incomplete
      else
        match parseBody quirk dir f exc (slice bs 8 (8 + ((rdBe16 bs 4).toNat - 2))) with
        | .error (.lengthMismatch _) => .error (.lengthMismatch (rdBe16 bs 4))
        | .error (.unrecognizedExceptionCode x) => .error (.unrecognizedExceptionCode x)
        | .ok body =>
          .frame
            { kind := kindOf dir,
              head := { transactionId := rdBe16 bs 0, protocolId := rdBe16 bs 2, length := rdBe16 bs 4,
                        unitId := byteAt bs 6, function := f, isException := exc },
              body := body }
            (8 + ((rdBe16 bs 4).toNat - 2))

/-! ## RTU decode -/

/-- `rtu_blen(dir, f, exc, bs)` (R77): the body length, or none for NEED. -/
def rtuBlen (dir : Dir) (f : Fn) (exc : Bool) (bs : Bytes) : Option Nat :=
  match dir, exc, f.group with
  | .rsp, true, _ => some 1
  | .rsp, false, .read => if 3 ≤ bs.length then some ((byteAt bs 2).toNat + 1) else none
  | .rsp, false, .wsingle => some 4
  | .rsp, false, .wmulti => some 4
  | .req, _, .read => some 4
  | .req, _, .wsingle => some 4
  | .req, _, .wmulti => if 7 ≤ bs.length then some ((byteAt bs 6).toNat + 5) else none

/-- The tables of R75 and R76 with offsets counted from the body's first byte: the RTU body length, or none where the
peeked byte is not there yet. -/
def bodyLength (dir : Dir) (f : Fn) (exc : Bool) (body : Bytes) : Option Nat :=
  match shapeFor (kindOf dir) f exc with
  | .readReq => some 4
  | .writeSingle => some 4
  | .writeMultiReq => if 5 ≤ body.length then some ((byteAt body 4).toNat + 5) else none
  | .readRsp => if 1 ≤ body.length then some ((byteAt body 0).toNat + 1) else none
  | .writeMultiRsp => some 4
  | .exceptionRsp => some 1

/-- `rtu_decode(dir, bs)` (R161), its conditions in the order of R167. The transaction id and protocol id are 0 and the
length is filled in (R169). A body of the wrong size cannot arise (R164); its arm only makes the function total. -/
def rtuDecode (quirk : Bool) (dir : Dir) (bs : Bytes) : DecodeOutcome :=
  if bs.length < 2 then .incomplete
  else
    match classify dir (byteAt bs 1) with
    | .error e => .error e
    | .ok (f, exc) =>
      match rtuBlen dir f exc bs with
      | none => .incomplete
      | some bl =>
        if bs.length < 2 + bl then .incomplete
        else if bs.length < 2 + bl + 2 then .incomplete
        else if crcCheck (slice bs 0 (2 + bl)) (rdLe16 bs (2 + bl)) = false then
          .error (.invalidChecksum (rdLe16 bs (2 + bl)))
        else
          match parseBody quirk dir f exc (slice bs 2 (2 + bl)) with
          | .error (.lengthMismatch n) => .error (.lengthMismatch (BitVec.ofNat 16 (2 + n)))
          | .error (.unrecognizedExceptionCode x) => .error (.unrecognizedExceptionCode x)
          | .ok body =>
            .frame
              { kind := kindOf dir,
                head := { transactionId := 0, protocolId := 0, length := BitVec.ofNat 16 (2 + bl),
                          unitId := byteAt bs 0, function := f, isException := exc },
                body := body }
              (4 + bl)

/-! ## Streams -/

/-- `decode(s, bs)` of spec/44_rx_stream.md: the decoder of a framing and a direction. -/
def streamDecode (quirk : Bool) (proto : Proto) (dir : Dir) (bs : Bytes) : DecodeOutcome :=
  match proto with
  | .tcp => tcpDecode quirk dir bs
  | .rtu => rtuDecode quirk dir bs

/-- The bytes still missing decide the phase of an RTU buffer whose decode is Incomplete (R185). -/
def rtuPhase (dir : Dir) (bs : Bytes) : Phase :=
  if bs.length < 2 then .awaitHead
  else
    match classify dir (byteAt bs 1) with
    | .error _ => .error
    | .ok (f, exc) =>
      match rtuBlen dir f exc bs with
      | none => .awaitCount
      | some bl => if bs.length < 2 + bl then .awaitBody else .awaitCrc

/-- `phase(proto, dir, bs)` (R185): a function of the configuration and the bytes, not a stored register (R28). -/
def phase (quirk : Bool) (proto : Proto) (dir : Dir) (bs : Bytes) : Phase :=
  match streamDecode quirk proto dir bs with
  | .frame _ _ => .complete
  | .error _ => .error
  | .incomplete =>
    match proto with
    | .tcp => if bs.length < 8 then .awaitHead else .awaitBody
    | .rtu => rtuPhase dir bs

/-- The phase codes of R185. -/
def Phase.code : Phase → Nat
  | .awaitHead => 0
  | .awaitCount => 1
  | .awaitBody => 2
  | .awaitCrc => 3
  | .complete => 4
  | .error => 5

/-- The status codes of R200 and R202. -/
def DecodeOutcome.code : DecodeOutcome → Nat
  | .frame _ _ => 0
  | .incomplete => 1
  | .error (.invalidFunctionCode _) => 2
  | .error (.invalidChecksum _) => 3
  | .error (.unrecognizedExceptionCode _) => 4
  | .error (.lengthMismatch _) => 5

end Sys2Proof
end

