-- ==== Sys2Proof/Machine/State.lean ====
section
/-! DEFINITION. The state of the block (spec/10_state.md R20 to R28, R34): the transaction-id tables and the receive
buffers, each beside the configuration of its builder or stream (R23), and the host's side of the operation port. Plain
data, no function. Then why a step can stop, and the state after reset. -/

namespace Sys2Proof.Machine

/-- `T[b]` (R24): 256 entries of u16, indexed by unit id; 0 is "no id issued yet". -/
abbrev TidTable := Vector U16 256

/-- The table of a fresh builder (R34). -/
def TidTable.fresh : TidTable := Vector.replicate 256 0

/-- A Frame Builder: its configured mode (R23) and its transaction-id table (R24). -/
structure Builder where
  mode : Mode
  tids : TidTable
  deriving DecidableEq, Repr

/-- A receive stream: its configured framing, direction and owner (R23) and its buffer, the oldest byte first (R27). -/
structure Stream where
  proto : Proto
  dir   : Dir
  owner : Agent
  buf   : Bytes
  deriving DecidableEq, Repr

/-- What an operation returns (R90). `lookup` and `exception` are what the wire rows give (R63, R31, R77; R64): for
`lookup` the function, the exception flag, the body shape, and the RTU body length or none where a byte is still needed. -/
inductive Result where
  | unit
  | word (v : U16)
  | bool (v : Bool)
  | frame (fr : Frame)
  | bytes (bs : Bytes)
  | outcome (o : DecodeOutcome)
  | status (length : Nat) (phase : Phase)
  | lookup (f : Fn) (exc : Bool) (shape : Shape) (blen : Option Nat)
  | exception (e : Exc)
  deriving DecidableEq, Repr

/-- The state of the block (R20, R23) and, last, the host's side of its port (log 4), which R20 does not count as state:
the operations not yet executed in the total order of R47, the agent of the one being executed (R49), and every result
so far, the oldest first (R213). -/
structure State where
  builders    : List Builder
  streams     : List Stream
  rxCapacity  : Option Nat
  refExcQuirk : Bool
  pending     : List Issue
  issuer      : Agent
  results     : List Result
  deriving DecidableEq, Repr

/-- The block has no fault state and no stuck state (R211): errors are outcomes, host duties are refusals. Nothing raises
a fault. Safe: there is nothing to raise. -/
inductive Fault where
  deriving DecidableEq, Repr

/-- Why an operation is refused: the closed list of R210. A refusal is safe: the model stops where the spec gives the
operation no meaning. -/
inductive Refusal where
  /-- Raised by `exec` for an instruction whose arm has no meaning yet; safe. -/
  | notModelled (mnemonic : String)
  /-- UnknownOperation (R91, R210): raised by a step whose operation code is not in R90's table; safe. -/
  | unknownOperation
  /-- OperandOutOfRange (R91, R210): raised by a step whose operands are not of R90's types, by a builder or stream index
  that is too large, and by RX_PUSH of no byte; safe. -/
  | operandOutOfRange
  /-- NotOwner (R49, R210): raised by RX_* issued by an agent that does not own the stream; safe. -/
  | notOwner
  /-- BufferOverflow (R44, R210): raised by RX_PUSH past the capacity; safe. -/
  | bufferOverflow
  /-- DiscardPastEnd (R182, R210): raised by RX_DISCARD of more bytes than are buffered; safe. -/
  | discardPastEnd
  /-- ValuesTooLong (R113, R210): raised by the six builders with values, for more than 255 of them; safe. -/
  | valuesTooLong
  /-- NotWellFormed (R140, R160, R210): raised by the encoders on a value that is not WF; safe. -/
  | notWellFormed
  deriving DecidableEq, Repr

/-- What one step or one meaning answers. -/
abbrev Outcome := Host.Outcome State Fault Refusal

/-- The configured part of a builder and a stream. -/
abbrev Stream.config (st : Stream) : StreamConfig := { proto := st.proto, dir := st.dir, owner := st.owner }

/-- The configuration a state carries (R23): what no operation writes. -/
def State.config (s : State) : Config :=
  { modes := s.builders.map (·.mode), streams := s.streams.map (·.config),
    rxCapacity := s.rxCapacity, refExcQuirk := s.refExcQuirk }

/-- A fresh builder of a mode (R34). -/
def Builder.fresh (m : Mode) : Builder := { mode := m, tids := TidTable.fresh }

/-- A stream that has received nothing (R34). -/
def Stream.fresh (c : StreamConfig) : Stream := { proto := c.proto, dir := c.dir, owner := c.owner, buf := [] }

/-- The power-on state of a block of any configuration (R34, R221): every table entry 0, every buffer empty. The host has
issued nothing and no result was given (DESIGN CHOICE, log 4). -/
def State.ofConfig (c : Config) : State :=
  { builders := c.modes.map Builder.fresh, streams := c.streams.map Stream.fresh,
    rxCapacity := c.rxCapacity, refExcQuirk := c.refExcQuirk, pending := [], issuer := 0, results := [] }

/-- The machine right after reset: R34's values in the configuration `Config.default` (log 1). -/
def State.reset : State := State.ofConfig Config.default

end Sys2Proof.Machine
end

