-- ==== Sys2Proof/Machine/Ops.lean ====
section
/-! DEFINITION. The named operations over the state that the meanings share: returning a result, allocating a transaction
id and building a frame (spec/41_builder.md R111 to R113), reaching a stream as its owner (spec/20_memory.md R49), taking the
next issue from the port (R47) and what becomes of one the decoder rejects (spec/30_encoding.md R65, R66, R91). The block has
no exception to take and none to return from (spec/60_exceptions.md R207): an error is a returned value (R203). -/

namespace Sys2Proof.Machine

/-- End an operation with a result, which goes to the host (R11 `return v`; R213). -/
def State.post (s : State) (r : Result) : State := { s with results := s.results ++ [r] }

/-- End a decode of an operand buffer with its outcome; nothing else changes (R203, R212). -/
def State.postOutcome (s : State) (o : DecodeOutcome) : State := s.post (.outcome o)

/-- Replace builder `b`. -/
def State.setBuilder (s : State) (b : Nat) (bl : Builder) : State := { s with builders := s.builders.set b bl }

/-- Replace stream `n`. -/
def State.setStream (s : State) (n : Nat) (st : Stream) : State := { s with streams := s.streams.set n st }

/-! ## The transaction-id table -/

/-- The last id issued for a unit (R24). -/
def TidTable.last (t : TidTable) (u : Byte) : U16 := t[u.toNat]'u.isLt

/-- Record the last id issued for a unit (R24). -/
def TidTable.record (t : TidTable) (u : Byte) (id : U16) : TidTable := t.set u.toNat id u.isLt

/-- The id after `prev` (R111): one more, and 1 after 0xFFFF. -/
def nextTid (prev : U16) : U16 := if prev = 0xFFFF then 0x0001 else prev + 1

/-- `tid_for(b, u)` (R111, R112): in TCP mode the next id, recorded in the table; in RTU mode 0, the table untouched. -/
def Builder.allocate (bl : Builder) (u : Byte) : U16 × Builder :=
  match bl.mode with
  | .tcp => (nextTid (bl.tids.last u), { bl with tids := bl.tids.record u (nextTid (bl.tids.last u)) })
  | .rtu => (0, bl)

/-- The head of a built frame (R113). -/
def builtHead (tid : U16) (u : Byte) (f : Fn) (exc : Bool) (body : Body) : Head :=
  { transactionId := tid, protocolId := 0x0000, length := lengthFor body, unitId := u, function := f, isException := exc }

/-- `mk(kind, b, u, f, exc, body)` (R113): refuse more than 255 values, allocate the id, return the frame. A builder that
does not exist is refused first (R91; order of refusals: DESIGN CHOICE, log 10). -/
def mk (kind : Kind) (b : Nat) (u : Byte) (f : Fn) (exc : Bool) (body : Body) (s : State) : Outcome :=
  match s.builders[b]? with
  | none => .refused .operandOutOfRange
  | some bl =>
    if 255 < body.values.length then .refused .valuesTooLong
    else
      .next ((s.setBuilder b (bl.allocate u).2).post
        (.frame { kind := kind, head := builtHead (bl.allocate u).1 u f exc body, body := body }))

/-! ## Streams -/

/-- Reach stream `n` for an RX_* operation: a stream that does not exist (R91), then an agent that is not its owner (R49),
are refused, before the operation's own duties are looked at (order of refusals: DESIGN CHOICE, log 10). -/
def withStream (n : Nat) (s : State) (act : Stream → Outcome) : Outcome :=
  match s.streams[n]? with
  | none => .refused .operandOutOfRange
  | some st => if st.owner = s.issuer then act st else .refused .notOwner

/-- `buf[s] <- v` (R11). -/
def State.setBuf (s : State) (n : Nat) (st : Stream) (bs : Bytes) : State := s.setStream n { st with buf := bs }

/-- Whether `k` bytes are within RX_CAPACITY (R44). -/
def fitsCapacity (cap : Option Nat) (k : Nat) : Bool :=
  match cap with
  | none => true
  | some c => decide (k ≤ c)

/-- What a decode leaves of the buffer it decoded from (R181): on a frame of `n` bytes the rest, otherwise all of it. -/
def afterDecode (o : DecodeOutcome) (bs : Bytes) : Bytes :=
  match o with
  | .frame _ n => bs.drop n
  | .incomplete => bs
  | .error _ => bs

/-! ## The wire rows -/

/-- What both decoders do on meeting a function byte (R63, R31, R75, R76): classify it, then the shape of the body it
announces and the RTU length of that body as far as the bytes after it tell; or the error of R63. No state changes
(DESIGN CHOICE, log 8). -/
def wireLookup (dir : Dir) (fb : Byte) (body : Bytes) (s : State) : Outcome :=
  match classify dir fb with
  | .error e => .next (s.postOutcome (.error e))
  | .ok (f, exc) => .next (s.post (.lookup f exc (shapeFor (kindOf dir) f exc) (bodyLength dir f exc body)))

/-- What a decode does on meeting an exception code (R64), the quirk included. -/
def wireException (x : Byte) (s : State) : Outcome :=
  match excDecode s.refExcQuirk x with
  | some e => .next (s.post (.exception e))
  | none => .next (s.postOutcome (.error (.unrecognizedExceptionCode x)))

/-! ## Reset -/

/-- RESET's effect on a builder (R220): every entry 0, the mode unchanged. -/
def Builder.cleared (bl : Builder) : Builder := { bl with tids := TidTable.fresh }

/-- RESET's effect on a stream (R220): the buffer empty, the configuration unchanged. -/
def Stream.cleared (st : Stream) : Stream := { st with buf := [] }

/-! ## The port -/

/-- The next operation in the total order of R47 and the state in which it executes; none where nothing is pending. -/
def State.take (s : State) : Option (Issue × State) :=
  match s.pending with
  | [] => none
  | i :: rest => some (i, { s with pending := rest, issuer := i.agent })

/-- What becomes of an issue the decoder rejects: a refusal (R91, R210), or, for a byte of a frame, the error outcome of
R65 and R66 returned to the host. -/
def rejected (r : Reject) (s : State) : Outcome :=
  match r with
  | .unknownOperation => .refused .unknownOperation
  | .operandOutOfRange => .refused .operandOutOfRange
  | .wireError e => .next (s.postOutcome (.error e))

end Sys2Proof.Machine
end

