-- ==== Sys2Proof/Machine/Builder.lean ====
section
/-! DEFINITION. The 17 operations of the Frame Builder (spec/41_builder.md): each is `mk` of R113 on its kind, function,
exception flag and body. -/

namespace Sys2Proof.Machine

/-- BUILD_REQ_READ_COILS (R114). -/
def execBuildReqReadCoils (b : Nat) (unit : Byte) (firstAddress count : U16) (s : State) : Outcome :=
  mk .request b unit .readCoils false (.readReq firstAddress count) s

/-- BUILD_REQ_READ_DISCRETE_INPUTS (R115). -/
def execBuildReqReadDiscreteInputs (b : Nat) (unit : Byte) (firstAddress count : U16) (s : State) : Outcome :=
  mk .request b unit .readDiscreteInputs false (.readReq firstAddress count) s

/-- BUILD_REQ_READ_HOLDING_REGISTERS (R116). -/
def execBuildReqReadHoldingRegisters (b : Nat) (unit : Byte) (firstAddress count : U16) (s : State) : Outcome :=
  mk .request b unit .readMultipleHoldingRegisters false (.readReq firstAddress count) s

/-- BUILD_REQ_READ_INPUT_REGISTERS (R117). -/
def execBuildReqReadInputRegisters (b : Nat) (unit : Byte) (firstAddress count : U16) (s : State) : Outcome :=
  mk .request b unit .readInputRegisters false (.readReq firstAddress count) s

/-- BUILD_REQ_WRITE_SINGLE_COIL (R118). -/
def execBuildReqWriteSingleCoil (b : Nat) (unit : Byte) (address value : U16) (s : State) : Outcome :=
  mk .request b unit .writeSingleCoil false (.writeSingle address value) s

/-- BUILD_REQ_WRITE_SINGLE_REGISTER (R119). -/
def execBuildReqWriteSingleRegister (b : Nat) (unit : Byte) (address value : U16) (s : State) : Outcome :=
  mk .request b unit .writeSingleHoldingRegister false (.writeSingle address value) s

/-- BUILD_REQ_WRITE_MULTIPLE_COILS (R120). -/
def execBuildReqWriteMultipleCoils (b : Nat) (unit : Byte) (firstAddress count : U16) (values : Bytes) (s : State) : Outcome :=
  mk .request b unit .writeMultipleCoils false (.writeMultiReq firstAddress count values) s

/-- BUILD_REQ_WRITE_MULTIPLE_REGISTERS (R121). -/
def execBuildReqWriteMultipleRegisters (b : Nat) (unit : Byte) (firstAddress count : U16) (values : Bytes) (s : State) : Outcome :=
  mk .request b unit .writeMultipleHoldingRegisters false (.writeMultiReq firstAddress count values) s

/-- BUILD_RSP_READ_COILS (R122). -/
def execBuildRspReadCoils (b : Nat) (unit : Byte) (values : Bytes) (s : State) : Outcome :=
  mk .response b unit .readCoils false (.readRsp values) s

/-- BUILD_RSP_READ_DISCRETE_INPUTS (R123). -/
def execBuildRspReadDiscreteInputs (b : Nat) (unit : Byte) (values : Bytes) (s : State) : Outcome :=
  mk .response b unit .readDiscreteInputs false (.readRsp values) s

/-- BUILD_RSP_READ_HOLDING_REGISTERS (R124). -/
def execBuildRspReadHoldingRegisters (b : Nat) (unit : Byte) (values : Bytes) (s : State) : Outcome :=
  mk .response b unit .readMultipleHoldingRegisters false (.readRsp values) s

/-- BUILD_RSP_READ_INPUT_REGISTERS (R125). -/
def execBuildRspReadInputRegisters (b : Nat) (unit : Byte) (values : Bytes) (s : State) : Outcome :=
  mk .response b unit .readInputRegisters false (.readRsp values) s

/-- BUILD_RSP_WRITE_SINGLE_COIL (R126). -/
def execBuildRspWriteSingleCoil (b : Nat) (unit : Byte) (address value : U16) (s : State) : Outcome :=
  mk .response b unit .writeSingleCoil false (.writeSingle address value) s

/-- BUILD_RSP_WRITE_SINGLE_REGISTER (R127). -/
def execBuildRspWriteSingleRegister (b : Nat) (unit : Byte) (address value : U16) (s : State) : Outcome :=
  mk .response b unit .writeSingleHoldingRegister false (.writeSingle address value) s

/-- BUILD_RSP_WRITE_MULTIPLE_COILS (R129). -/
def execBuildRspWriteMultipleCoils (b : Nat) (unit : Byte) (firstAddress count : U16) (s : State) : Outcome :=
  mk .response b unit .writeMultipleCoils false (.writeMultiRsp firstAddress count) s

/-- BUILD_RSP_WRITE_MULTIPLE_REGISTERS (R130). -/
def execBuildRspWriteMultipleRegisters (b : Nat) (unit : Byte) (firstAddress count : U16) (s : State) : Outcome :=
  mk .response b unit .writeMultipleHoldingRegisters false (.writeMultiRsp firstAddress count) s

/-- BUILD_EXCEPTION (R128): the head keeps the original function; `is_exception` is set. -/
def execBuildException (b : Nat) (unit : Byte) (function : Fn) (exception : Exc) (s : State) : Outcome :=
  mk .response b unit function true (.exceptionRsp exception) s

end Sys2Proof.Machine
end

