-- ==== Sys2Proof/Machine/Crc.lean ====
section
/-! DEFINITION. The CRC16 Engine (spec/40_crc.md): the two CRC operations over the function `crc16`. -/

namespace Sys2Proof.Machine

/-- CRC_COMPUTE (R102): return `crc16(bs)`. -/
def execCrcCompute (bs : Bytes) (s : State) : Outcome := .next (s.post (.word (crc16 bs)))

/-- CRC_CHECK (R103): return whether `crc16(bs)` is the candidate. -/
def execCrcCheck (bs : Bytes) (candidate : U16) (s : State) : Outcome := .next (s.post (.bool (crcCheck bs candidate)))

end Sys2Proof.Machine
end

