-- ==== Sys2Proof/Machine/Rtu.lean ====
section
/-! DEFINITION. The operations of the RTU Codec (spec/43_rtu_codec.md). -/

namespace Sys2Proof.Machine

/-- ENCODE_RTU (R160): the wire bytes of a WF value, CRC included; any other value is refused. -/
def execEncodeRtu (fr : Frame) (s : State) : Outcome :=
  if fr.wf then .next (s.post (.bytes (rtuEncode fr))) else .refused .notWellFormed

/-- DECODE_RTU_REQ (R162). -/
def execDecodeRtuReq (bs : Bytes) (s : State) : Outcome := .next (s.postOutcome (rtuDecode s.refExcQuirk .req bs))

/-- DECODE_RTU_RSP (R166). -/
def execDecodeRtuRsp (bs : Bytes) (s : State) : Outcome := .next (s.postOutcome (rtuDecode s.refExcQuirk .rsp bs))

end Sys2Proof.Machine
end

