-- ==== Sys2Proof/Machine/Rx.lean ====
section
/-! DEFINITION. The operations of the receive streams (spec/44_rx_stream.md) and RESET (spec/70_reset_and_hazards.md). -/

namespace Sys2Proof.Machine

/-- RX_PUSH (R180): append at least one byte; past RX_CAPACITY it is refused (R44). A push of no byte is refused (R91), and by
an agent that is not the owner it is refused as NotOwner: the spec gives refusals no order (DESIGN CHOICE, log 10). -/
def execRxPush (n : Nat) (bs : Bytes) (s : State) : Outcome :=
  withStream n s fun st =>
    if bs = [] then .refused .operandOutOfRange
    else if fitsCapacity s.rxCapacity (st.buf.length + bs.length) = false then .refused .bufferOverflow
    else .next ((s.setBuf n st (st.buf ++ bs)).post .unit)

/-- RX_DECODE (R181): decode one frame from the front and consume it if there is one; return the outcome. -/
def execRxDecode (n : Nat) (s : State) : Outcome :=
  withStream n s fun st =>
    .next ((s.setBuf n st (afterDecode (streamDecode s.refExcQuirk st.proto st.dir st.buf) st.buf)).postOutcome
      (streamDecode s.refExcQuirk st.proto st.dir st.buf))

/-- RX_DISCARD (R182): drop `k` bytes from the front; more than are buffered is refused. -/
def execRxDiscard (n k : Nat) (s : State) : Outcome :=
  withStream n s fun st =>
    if st.buf.length < k then .refused .discardPastEnd
    else .next ((s.setBuf n st (st.buf.drop k)).post .unit)

/-- RX_FLUSH (R183): empty the stream. -/
def execRxFlush (n : Nat) (s : State) : Outcome :=
  withStream n s fun st => .next ((s.setBuf n st []).post .unit)

/-- RX_STATUS (R184): how many bytes the stream holds and its phase; no state changes. -/
def execRxStatus (n : Nat) (s : State) : Outcome :=
  withStream n s fun st =>
    .next (s.post (.status st.buf.length (phase s.refExcQuirk st.proto st.dir st.buf)))

/-- RESET (R220): every table entry 0, every buffer empty, the configuration unchanged. -/
def execReset (s : State) : Outcome :=
  .next (State.post { s with builders := s.builders.map Builder.cleared, streams := s.streams.map Stream.cleared } .unit)

end Sys2Proof.Machine
end

