-- ==== Sys2Proof/Machine/Tcp.lean ====
section
/-! DEFINITION. The operations of the TCP Codec (spec/42_tcp_codec.md). -/

namespace Sys2Proof.Machine

/-- ENCODE_TCP (R140): the wire bytes of a WF value; any other value is refused. -/
def execEncodeTcp (fr : Frame) (s : State) : Outcome :=
  if fr.wf then .next (s.post (.bytes (tcpEncode fr))) else .refused .notWellFormed

/-- DECODE_TCP_REQ (R142). -/
def execDecodeTcpReq (bs : Bytes) (s : State) : Outcome := .next (s.postOutcome (tcpDecode s.refExcQuirk .req bs))

/-- DECODE_TCP_RSP (R144). -/
def execDecodeTcpRsp (bs : Bytes) (s : State) : Outcome := .next (s.postOutcome (tcpDecode s.refExcQuirk .rsp bs))

end Sys2Proof.Machine
end

