-- ==== Sys2Proof/Machine/Wire.lean ====
section
/-! DEFINITION. The wire rows of the opcode table (spec/30_encoding.md R61 to R66): for each function byte what both decoders
do on meeting it, and for each exception code what a decode does with it (log 8). The byte is the row's own match. -/

namespace Sys2Proof.Machine

/-- WIRE_REQ_ReadCoils (R62). -/
def execWireReqReadCoils (body : Bytes) (s : State) : Outcome := wireLookup .req 0x01 body s

/-- WIRE_REQ_ReadDiscreteInputs (R62). -/
def execWireReqReadDiscreteInputs (body : Bytes) (s : State) : Outcome := wireLookup .req 0x02 body s

/-- WIRE_REQ_ReadMultipleHoldingRegisters (R62). -/
def execWireReqReadMultipleHoldingRegisters (body : Bytes) (s : State) : Outcome := wireLookup .req 0x03 body s

/-- WIRE_REQ_ReadInputRegisters (R62). -/
def execWireReqReadInputRegisters (body : Bytes) (s : State) : Outcome := wireLookup .req 0x04 body s

/-- WIRE_REQ_WriteSingleCoil (R62). -/
def execWireReqWriteSingleCoil (body : Bytes) (s : State) : Outcome := wireLookup .req 0x05 body s

/-- WIRE_REQ_WriteSingleHoldingRegister (R62). -/
def execWireReqWriteSingleHoldingRegister (body : Bytes) (s : State) : Outcome := wireLookup .req 0x06 body s

/-- WIRE_REQ_WriteMultipleCoils (R62). -/
def execWireReqWriteMultipleCoils (body : Bytes) (s : State) : Outcome := wireLookup .req 0x0F body s

/-- WIRE_REQ_WriteMultipleHoldingRegisters (R62). -/
def execWireReqWriteMultipleHoldingRegisters (body : Bytes) (s : State) : Outcome := wireLookup .req 0x10 body s

/-- WIRE_RSP_ReadCoils (R62). -/
def execWireRspReadCoils (body : Bytes) (s : State) : Outcome := wireLookup .rsp 0x01 body s

/-- WIRE_RSP_ReadDiscreteInputs (R62). -/
def execWireRspReadDiscreteInputs (body : Bytes) (s : State) : Outcome := wireLookup .rsp 0x02 body s

/-- WIRE_RSP_ReadMultipleHoldingRegisters (R62). -/
def execWireRspReadMultipleHoldingRegisters (body : Bytes) (s : State) : Outcome := wireLookup .rsp 0x03 body s

/-- WIRE_RSP_ReadInputRegisters (R62). -/
def execWireRspReadInputRegisters (body : Bytes) (s : State) : Outcome := wireLookup .rsp 0x04 body s

/-- WIRE_RSP_WriteSingleCoil (R62). -/
def execWireRspWriteSingleCoil (body : Bytes) (s : State) : Outcome := wireLookup .rsp 0x05 body s

/-- WIRE_RSP_WriteSingleHoldingRegister (R62). -/
def execWireRspWriteSingleHoldingRegister (body : Bytes) (s : State) : Outcome := wireLookup .rsp 0x06 body s

/-- WIRE_RSP_WriteMultipleCoils (R62). -/
def execWireRspWriteMultipleCoils (body : Bytes) (s : State) : Outcome := wireLookup .rsp 0x0F body s

/-- WIRE_RSP_WriteMultipleHoldingRegisters (R62). -/
def execWireRspWriteMultipleHoldingRegisters (body : Bytes) (s : State) : Outcome := wireLookup .rsp 0x10 body s

/-- WIRE_RSP_EXCEPTION_ReadCoils (R63). -/
def execWireRspExceptionReadCoils (body : Bytes) (s : State) : Outcome := wireLookup .rsp 0x81 body s

/-- WIRE_RSP_EXCEPTION_ReadDiscreteInputs (R63). -/
def execWireRspExceptionReadDiscreteInputs (body : Bytes) (s : State) : Outcome := wireLookup .rsp 0x82 body s

/-- WIRE_RSP_EXCEPTION_ReadMultipleHoldingRegisters (R63). -/
def execWireRspExceptionReadMultipleHoldingRegisters (body : Bytes) (s : State) : Outcome := wireLookup .rsp 0x83 body s

/-- WIRE_RSP_EXCEPTION_ReadInputRegisters (R63). -/
def execWireRspExceptionReadInputRegisters (body : Bytes) (s : State) : Outcome := wireLookup .rsp 0x84 body s

/-- WIRE_RSP_EXCEPTION_WriteSingleCoil (R63). -/
def execWireRspExceptionWriteSingleCoil (body : Bytes) (s : State) : Outcome := wireLookup .rsp 0x85 body s

/-- WIRE_RSP_EXCEPTION_WriteSingleHoldingRegister (R63). -/
def execWireRspExceptionWriteSingleHoldingRegister (body : Bytes) (s : State) : Outcome := wireLookup .rsp 0x86 body s

/-- WIRE_RSP_EXCEPTION_WriteMultipleCoils (R63). -/
def execWireRspExceptionWriteMultipleCoils (body : Bytes) (s : State) : Outcome := wireLookup .rsp 0x8F body s

/-- WIRE_RSP_EXCEPTION_WriteMultipleHoldingRegisters (R63). -/
def execWireRspExceptionWriteMultipleHoldingRegisters (body : Bytes) (s : State) : Outcome := wireLookup .rsp 0x90 body s

/-- WIRE_EXCEPTION_CODE_IllegalFunction (R64). -/
def execWireExceptionCodeIllegalFunction (s : State) : Outcome := wireException 0x01 s

/-- WIRE_EXCEPTION_CODE_IllegalDataAddress (R64). -/
def execWireExceptionCodeIllegalDataAddress (s : State) : Outcome := wireException 0x02 s

/-- WIRE_EXCEPTION_CODE_IllegalDataValue (R64). -/
def execWireExceptionCodeIllegalDataValue (s : State) : Outcome := wireException 0x03 s

/-- WIRE_EXCEPTION_CODE_SlaveDeviceFailure (R64). -/
def execWireExceptionCodeSlaveDeviceFailure (s : State) : Outcome := wireException 0x04 s

/-- WIRE_EXCEPTION_CODE_Acknowledge (R64). -/
def execWireExceptionCodeAcknowledge (s : State) : Outcome := wireException 0x05 s

end Sys2Proof.Machine
end

