-- ==== Sys2Proof/Machine/Dispatch.lean ====
section
/-! DEFINITION. The dispatch: one arm per constructor of `Instr`, one meaning per arm. -/

namespace Sys2Proof.Machine

/-- Execute one instruction. -/
def exec (i : Instr) (s : State) : Host.Outcome State Fault Refusal :=
  match i with
  | .crcCompute bs => Sys2Proof.Machine.execCrcCompute bs s
  | .crcCheck bs candidate => Sys2Proof.Machine.execCrcCheck bs candidate s
  | .buildReqReadCoils b unit firstAddress count => Sys2Proof.Machine.execBuildReqReadCoils b unit firstAddress count s
  | .buildReqReadDiscreteInputs b unit firstAddress count => Sys2Proof.Machine.execBuildReqReadDiscreteInputs b unit firstAddress count s
  | .buildReqReadHoldingRegisters b unit firstAddress count => Sys2Proof.Machine.execBuildReqReadHoldingRegisters b unit firstAddress count s
  | .buildReqReadInputRegisters b unit firstAddress count => Sys2Proof.Machine.execBuildReqReadInputRegisters b unit firstAddress count s
  | .buildReqWriteSingleCoil b unit address value => Sys2Proof.Machine.execBuildReqWriteSingleCoil b unit address value s
  | .buildReqWriteSingleRegister b unit address value => Sys2Proof.Machine.execBuildReqWriteSingleRegister b unit address value s
  | .buildReqWriteMultipleCoils b unit firstAddress count values => Sys2Proof.Machine.execBuildReqWriteMultipleCoils b unit firstAddress count values s
  | .buildReqWriteMultipleRegisters b unit firstAddress count values => Sys2Proof.Machine.execBuildReqWriteMultipleRegisters b unit firstAddress count values s
  | .buildRspReadCoils b unit values => Sys2Proof.Machine.execBuildRspReadCoils b unit values s
  | .buildRspReadDiscreteInputs b unit values => Sys2Proof.Machine.execBuildRspReadDiscreteInputs b unit values s
  | .buildRspReadHoldingRegisters b unit values => Sys2Proof.Machine.execBuildRspReadHoldingRegisters b unit values s
  | .buildRspReadInputRegisters b unit values => Sys2Proof.Machine.execBuildRspReadInputRegisters b unit values s
  | .buildRspWriteSingleCoil b unit address value => Sys2Proof.Machine.execBuildRspWriteSingleCoil b unit address value s
  | .buildRspWriteSingleRegister b unit address value => Sys2Proof.Machine.execBuildRspWriteSingleRegister b unit address value s
  | .buildRspWriteMultipleCoils b unit firstAddress count => Sys2Proof.Machine.execBuildRspWriteMultipleCoils b unit firstAddress count s
  | .buildRspWriteMultipleRegisters b unit firstAddress count => Sys2Proof.Machine.execBuildRspWriteMultipleRegisters b unit firstAddress count s
  | .buildException b unit function exception => Sys2Proof.Machine.execBuildException b unit function exception s
  | .encodeTcp fr => Sys2Proof.Machine.execEncodeTcp fr s
  | .encodeRtu fr => Sys2Proof.Machine.execEncodeRtu fr s
  | .decodeTcpReq bs => Sys2Proof.Machine.execDecodeTcpReq bs s
  | .decodeTcpRsp bs => Sys2Proof.Machine.execDecodeTcpRsp bs s
  | .decodeRtuReq bs => Sys2Proof.Machine.execDecodeRtuReq bs s
  | .decodeRtuRsp bs => Sys2Proof.Machine.execDecodeRtuRsp bs s
  | .rxPush n bs => Sys2Proof.Machine.execRxPush n bs s
  | .rxDecode n => Sys2Proof.Machine.execRxDecode n s
  | .rxDiscard n k => Sys2Proof.Machine.execRxDiscard n k s
  | .rxFlush n => Sys2Proof.Machine.execRxFlush n s
  | .rxStatus n => Sys2Proof.Machine.execRxStatus n s
  | .reset => Sys2Proof.Machine.execReset s
  | .wireReqReadCoils body => Sys2Proof.Machine.execWireReqReadCoils body s
  | .wireReqReadDiscreteInputs body => Sys2Proof.Machine.execWireReqReadDiscreteInputs body s
  | .wireReqReadMultipleHoldingRegisters body => Sys2Proof.Machine.execWireReqReadMultipleHoldingRegisters body s
  | .wireReqReadInputRegisters body => Sys2Proof.Machine.execWireReqReadInputRegisters body s
  | .wireReqWriteSingleCoil body => Sys2Proof.Machine.execWireReqWriteSingleCoil body s
  | .wireReqWriteSingleHoldingRegister body => Sys2Proof.Machine.execWireReqWriteSingleHoldingRegister body s
  | .wireReqWriteMultipleCoils body => Sys2Proof.Machine.execWireReqWriteMultipleCoils body s
  | .wireReqWriteMultipleHoldingRegisters body => Sys2Proof.Machine.execWireReqWriteMultipleHoldingRegisters body s
  | .wireRspReadCoils body => Sys2Proof.Machine.execWireRspReadCoils body s
  | .wireRspReadDiscreteInputs body => Sys2Proof.Machine.execWireRspReadDiscreteInputs body s
  | .wireRspReadMultipleHoldingRegisters body => Sys2Proof.Machine.execWireRspReadMultipleHoldingRegisters body s
  | .wireRspReadInputRegisters body => Sys2Proof.Machine.execWireRspReadInputRegisters body s
  | .wireRspWriteSingleCoil body => Sys2Proof.Machine.execWireRspWriteSingleCoil body s
  | .wireRspWriteSingleHoldingRegister body => Sys2Proof.Machine.execWireRspWriteSingleHoldingRegister body s
  | .wireRspWriteMultipleCoils body => Sys2Proof.Machine.execWireRspWriteMultipleCoils body s
  | .wireRspWriteMultipleHoldingRegisters body => Sys2Proof.Machine.execWireRspWriteMultipleHoldingRegisters body s
  | .wireRspExceptionReadCoils body => Sys2Proof.Machine.execWireRspExceptionReadCoils body s
  | .wireRspExceptionReadDiscreteInputs body => Sys2Proof.Machine.execWireRspExceptionReadDiscreteInputs body s
  | .wireRspExceptionReadMultipleHoldingRegisters body => Sys2Proof.Machine.execWireRspExceptionReadMultipleHoldingRegisters body s
  | .wireRspExceptionReadInputRegisters body => Sys2Proof.Machine.execWireRspExceptionReadInputRegisters body s
  | .wireRspExceptionWriteSingleCoil body => Sys2Proof.Machine.execWireRspExceptionWriteSingleCoil body s
  | .wireRspExceptionWriteSingleHoldingRegister body => Sys2Proof.Machine.execWireRspExceptionWriteSingleHoldingRegister body s
  | .wireRspExceptionWriteMultipleCoils body => Sys2Proof.Machine.execWireRspExceptionWriteMultipleCoils body s
  | .wireRspExceptionWriteMultipleHoldingRegisters body => Sys2Proof.Machine.execWireRspExceptionWriteMultipleHoldingRegisters body s
  | .wireExceptionCodeIllegalFunction => Sys2Proof.Machine.execWireExceptionCodeIllegalFunction s
  | .wireExceptionCodeIllegalDataAddress => Sys2Proof.Machine.execWireExceptionCodeIllegalDataAddress s
  | .wireExceptionCodeIllegalDataValue => Sys2Proof.Machine.execWireExceptionCodeIllegalDataValue s
  | .wireExceptionCodeSlaveDeviceFailure => Sys2Proof.Machine.execWireExceptionCodeSlaveDeviceFailure s
  | .wireExceptionCodeAcknowledge => Sys2Proof.Machine.execWireExceptionCodeAcknowledge s

end Sys2Proof.Machine
end

