-- ==== Sys2Proof/Machine/Step.lean ====
section
/-! DEFINITION. One step of the block: the next operation of the total order (spec/20_memory.md R47) is taken from the port,
decoded and executed. There is no program counter (spec/10_state.md R21): what executes next is what the host issued next. -/

namespace Sys2Proof.Machine

/-- One step. With nothing pending the block does nothing (DESIGN CHOICE, log 5). -/
def step (s : State) : Host.Outcome State Fault Refusal :=
  match s.take with
  | none => .next s
  | some (i, s') =>
    match decode i with
    | .error r => rejected r s'
    | .ok x => exec x s'

/-- The state whose very next step runs the instruction that the bits `w` of an opcode-table row stand for: it is issued
ahead of everything pending, by the owner of stream 0, who may issue every operation (R49). A word that is no row's is
issued as an operation code (log 9). -/
def State.withFetchWord (s : State) (nbits w : Nat) : State :=
  let a : Agent := (s.streams[0]?.map (·.owner)).getD 0
  { s with pending := (tableIssue a nbits w).getD (opIssue a (BitVec.ofNat 8 w) []) :: s.pending }

end Sys2Proof.Machine
end

