-- ==== Sys2Proof/Safety.lean ====
section
/-! DEFINITION. What statements about runs are made of: what an instruction reaches, the invariant of the block
(spec/10_state.md R23, R27, R32), a run with its refusal mark (spec/60_exceptions.md R210), and what is observed of a run
(R213). -/

namespace Sys2Proof.Machine

/-- The builder and the unit of the 17 builder operations; none for every other instruction. -/
def buildTarget : Instr → Option (Nat × Byte)
  | .buildReqReadCoils b u _ _ => some (b, u)
  | .buildReqReadDiscreteInputs b u _ _ => some (b, u)
  | .buildReqReadHoldingRegisters b u _ _ => some (b, u)
  | .buildReqReadInputRegisters b u _ _ => some (b, u)
  | .buildReqWriteSingleCoil b u _ _ => some (b, u)
  | .buildReqWriteSingleRegister b u _ _ => some (b, u)
  | .buildReqWriteMultipleCoils b u _ _ _ => some (b, u)
  | .buildReqWriteMultipleRegisters b u _ _ _ => some (b, u)
  | .buildRspReadCoils b u _ => some (b, u)
  | .buildRspReadDiscreteInputs b u _ => some (b, u)
  | .buildRspReadHoldingRegisters b u _ => some (b, u)
  | .buildRspReadInputRegisters b u _ => some (b, u)
  | .buildRspWriteSingleCoil b u _ _ => some (b, u)
  | .buildRspWriteSingleRegister b u _ _ => some (b, u)
  | .buildRspWriteMultipleCoils b u _ _ => some (b, u)
  | .buildRspWriteMultipleRegisters b u _ _ => some (b, u)
  | .buildException b u _ _ => some (b, u)
  | _ => none

/-- The stream of the 5 RX_* operations; none for every other instruction. -/
def streamTarget : Instr → Option Nat
  | .rxPush n _ => some n
  | .rxDecode n => some n
  | .rxDiscard n _ => some n
  | .rxFlush n => some n
  | .rxStatus n => some n
  | _ => none

/-- Whether every frame value in a result is WF (R32: every value a builder or a decoder returns satisfies WF). -/
def Result.framesWf : Result → Bool
  | .frame fr => fr.wf
  | .outcome (.frame v _) => v.wf
  | _ => true

/-- The invariant of the block: the configuration is legal (R8, R23), no buffer is past the capacity (R27, R44), and every
frame value given back is well formed (R32). -/
structure State.Inv (s : State) : Prop where
  configLegal    : s.config.wf = true
  withinCapacity : ∀ st ∈ s.streams, fitsCapacity s.rxCapacity st.buf.length = true
  framesWf       : ∀ r ∈ s.results, r.framesWf = true

/-- A run of the block: the state and the refusal mark of R210, none while nothing was refused. -/
structure Run where
  state : State
  mark  : Option Refusal
  deriving DecidableEq, Repr

/-- The operation at the head of the port, refused: it changes no state and returns nothing (R210). -/
def State.dropIssue (s : State) : State := { s with pending := s.pending.tail }

/-- One step of a run. A refused operation sets the mark, which is kept for the rest of the run (R210), and the run goes on
with the next operation; of several reasons the mark keeps the first (DESIGN CHOICE, log 6). -/
def Run.step (r : Run) : Run :=
  match Machine.step r.state with
  | .next s' => { r with state := s' }
  | .fault _ => r
  | .refused e => { state := r.state.dropIssue, mark := some (r.mark.getD e) }

/-- `k` steps of a run. -/
def Run.steps : Nat → Run → Run
  | 0, r => r
  | k + 1, r => Run.steps k r.step

/-- A run ends after its last operation (R213). -/
def Run.ended (r : Run) : Bool := r.state.pending.isEmpty

/-- A safe run: nothing in it was refused (R210: a run containing a refusal satisfies no claim). -/
def Run.safe (r : Run) : Bool := r.mark.isNone

/-- What is observed of a run (R213). -/
structure Observation where
  results : List Result
  tables  : List TidTable
  buffers : List Bytes
  refused : Bool
  deriving DecidableEq, Repr

/-- The observation of a run as it stands. -/
def Run.observe (r : Run) : Observation :=
  { results := r.state.results, tables := r.state.builders.map (·.tids), buffers := r.state.streams.map (·.buf),
    refused := r.mark.isSome }

end Sys2Proof.Machine
end

