-- ==== Sys2Proof/WellFormed.lean ====
section
/-! DEFINITION. Which instructions are well formed for a configuration: every operand is of its type (spec/30_encoding.md
R90, R91) and every host duty an operand can break is kept (spec/60_exceptions.md R210). Duties that depend on the state
(the owner, the capacity, the bytes buffered) are the meanings' to check. -/

namespace Sys2Proof

/-- A builder index (R91). -/
def Config.hasBuilder (c : Config) (b : Nat) : Bool := decide (b < c.nBuilders)

/-- A stream index (R91). -/
def Config.hasStream (c : Config) (s : Nat) : Bool := decide (s < c.nStreams)

/-- At most 255 values (R113). -/
def valuesFit (vs : Bytes) : Bool := decide (vs.length ≤ 255)

/-- Well-formedness of an instruction (R90, R91, R210). -/
def Instr.wf (c : Config) : Instr → Bool
  | .crcCompute _ => true
  | .crcCheck _ _ => true
  | .buildReqReadCoils b _ _ _ => c.hasBuilder b
  | .buildReqReadDiscreteInputs b _ _ _ => c.hasBuilder b
  | .buildReqReadHoldingRegisters b _ _ _ => c.hasBuilder b
  | .buildReqReadInputRegisters b _ _ _ => c.hasBuilder b
  | .buildReqWriteSingleCoil b _ _ _ => c.hasBuilder b
  | .buildReqWriteSingleRegister b _ _ _ => c.hasBuilder b
  | .buildReqWriteMultipleCoils b _ _ _ vs => c.hasBuilder b && valuesFit vs
  | .buildReqWriteMultipleRegisters b _ _ _ vs => c.hasBuilder b && valuesFit vs
  | .buildRspReadCoils b _ vs => c.hasBuilder b && valuesFit vs
  | .buildRspReadDiscreteInputs b _ vs => c.hasBuilder b && valuesFit vs
  | .buildRspReadHoldingRegisters b _ vs => c.hasBuilder b && valuesFit vs
  | .buildRspReadInputRegisters b _ vs => c.hasBuilder b && valuesFit vs
  | .buildRspWriteSingleCoil b _ _ _ => c.hasBuilder b
  | .buildRspWriteSingleRegister b _ _ _ => c.hasBuilder b
  | .buildRspWriteMultipleCoils b _ _ _ => c.hasBuilder b
  | .buildRspWriteMultipleRegisters b _ _ _ => c.hasBuilder b
  | .buildException b _ _ _ => c.hasBuilder b
  | .encodeTcp fr => fr.wf
  | .encodeRtu fr => fr.wf
  | .decodeTcpReq _ => true
  | .decodeTcpRsp _ => true
  | .decodeRtuReq _ => true
  | .decodeRtuRsp _ => true
  | .rxPush s bs => c.hasStream s && decide (1 ≤ bs.length)
  | .rxDecode s => c.hasStream s
  | .rxDiscard s _ => c.hasStream s
  | .rxFlush s => c.hasStream s
  | .rxStatus s => c.hasStream s
  | .reset => true
  | .wireReqReadCoils _ => true
  | .wireReqReadDiscreteInputs _ => true
  | .wireReqReadMultipleHoldingRegisters _ => true
  | .wireReqReadInputRegisters _ => true
  | .wireReqWriteSingleCoil _ => true
  | .wireReqWriteSingleHoldingRegister _ => true
  | .wireReqWriteMultipleCoils _ => true
  | .wireReqWriteMultipleHoldingRegisters _ => true
  | .wireRspReadCoils _ => true
  | .wireRspReadDiscreteInputs _ => true
  | .wireRspReadMultipleHoldingRegisters _ => true
  | .wireRspReadInputRegisters _ => true
  | .wireRspWriteSingleCoil _ => true
  | .wireRspWriteSingleHoldingRegister _ => true
  | .wireRspWriteMultipleCoils _ => true
  | .wireRspWriteMultipleHoldingRegisters _ => true
  | .wireRspExceptionReadCoils _ => true
  | .wireRspExceptionReadDiscreteInputs _ => true
  | .wireRspExceptionReadMultipleHoldingRegisters _ => true
  | .wireRspExceptionReadInputRegisters _ => true
  | .wireRspExceptionWriteSingleCoil _ => true
  | .wireRspExceptionWriteSingleHoldingRegister _ => true
  | .wireRspExceptionWriteMultipleCoils _ => true
  | .wireRspExceptionWriteMultipleHoldingRegisters _ => true
  | .wireExceptionCodeIllegalFunction => true
  | .wireExceptionCodeIllegalDataAddress => true
  | .wireExceptionCodeIllegalDataValue => true
  | .wireExceptionCodeSlaveDeviceFailure => true
  | .wireExceptionCodeAcknowledge => true

end Sys2Proof
end

