-- ==== Sys2Proof/Certificates/Slice0/Obligations.lean ====
section
/-! DEFINITION. The statements about the block, each one a rule of spec/ or derived from the sections it names. First the few
notions they share; then one definition for each. A statement that rests on a choice of the model says so and names the
entry of the assumption log. -/

namespace Sys2Proof.Claims

open Sys2Proof.Machine

/-- Executing a list of instructions in order, stopping at the first refusal. -/
def execAll : List Instr → State → Outcome
  | [], s => .next s
  | i :: is, s =>
    match exec i s with
    | .next t => execAll is t
    | .fault e => .fault e
    | .refused r => .refused r

/-- Executing a list of instructions in order, each issued by an agent of its own, stopping at the first refusal. -/
def execIssued : List (Agent × Instr) → State → Outcome
  | [], s => .next s
  | (a, i) :: is, s =>
    match exec i { s with issuer := a } with
    | .next t => execIssued is t
    | .fault e => .fault e
    | .refused r => .refused r

/-- The state in which an operation that changes nothing else has returned `r`. -/
def returning (s : State) (r : Result) : State := { s with results := s.results ++ [r] }

/-- The id R111 and R112 give the next build for a unit. -/
def idIssued (bl : Builder) (u : Byte) : U16 :=
  match bl.mode with
  | .tcp => if bl.tids[u.toNat]'u.isLt = 0xFFFF then 0x0001 else bl.tids[u.toNat]'u.isLt + 1
  | .rtu => 0

/-- The builder after that build. -/
def builderAfter (bl : Builder) (u : Byte) : Builder :=
  match bl.mode with
  | .tcp => { bl with tids := bl.tids.set u.toNat (idIssued bl u) u.isLt }
  | .rtu => bl

/-- Instruction `i` builds the frame `fr id` on builder `b` for unit `u`, whatever the state: it completes, the builder
allocates, the frame is returned, and nothing else changes. -/
def Builds (i : Instr) (b : Nat) (u : Byte) (fr : U16 → Frame) : Prop :=
  ∀ (s : State) (bl : Builder), s.builders[b]? = some bl →
    exec i s = .next { s with
      builders := s.builders.set b (builderAfter bl u),
      results := s.results ++ [.frame (fr (idIssued bl u))] }

/-- A request frame with the head every builder makes (R113). -/
def requestFrame (length : U16) (u : Byte) (f : Fn) (body : Body) (tid : U16) : Frame :=
  { kind := .request,
    head := { transactionId := tid, protocolId := 0, length := length, unitId := u, function := f, isException := false },
    body := body }

/-- A response frame with the head every builder makes (R113). -/
def responseFrame (length : U16) (u : Byte) (f : Fn) (exc : Bool) (body : Body) (tid : U16) : Frame :=
  { kind := .response,
    head := { transactionId := tid, protocolId := 0, length := length, unitId := u, function := f, isException := exc },
    body := body }

/-- The transaction ids of the frames built for unit `u` on builder `b`, in order. -/
def idsFor (b : Nat) (u : Byte) : List Instr → List Result → List U16
  | i :: is, .frame fr :: rs =>
    if buildTarget i = some (b, u) then fr.head.transactionId :: idsFor b u is rs else idsFor b u is rs
  | _, _ => []

/-- The function bytes R65 leaves legal in a direction: 8 in REQ, 16 in RSP. -/
def legalBytes : Dir → List Byte
  | .req => [0x01, 0x02, 0x03, 0x04, 0x05, 0x06, 0x0F, 0x10]
  | .rsp => [0x01, 0x02, 0x03, 0x04, 0x05, 0x06, 0x0F, 0x10, 0x81, 0x82, 0x83, 0x84, 0x85, 0x86, 0x8F, 0x90]

/-- The wire bytes of a value in a framing (R140, R160). -/
def wireBytes : Proto → Frame → Bytes
  | .tcp, fr => tcpEncode fr
  | .rtu, fr => rtuEncode fr

/-- The u16 `v` stands at offset `k` of `w`, high byte first (R42). -/
def u16At (w : Bytes) (k : Nat) (v : U16) : Prop := v.toNat = (byteAt w k).toNat * 256 + (byteAt w (k + 1)).toNat

/-- A body stands at offset `k` of `w` in the layout R72 gives its shape: each u16 high byte first, the first field first, the
count byte before the values. -/
def bodyAt (w : Bytes) (k : Nat) : Body → Prop
  | .readReq a c => u16At w k a ∧ u16At w (k + 2) c
  | .writeSingle a v => u16At w k a ∧ u16At w (k + 2) v
  | .writeMultiReq a c vs => u16At w k a ∧ u16At w (k + 2) c ∧ (byteAt w (k + 4)).toNat = vs.length ∧
      (w.drop (k + 5)).take vs.length = vs
  | .readRsp vs => (byteAt w k).toNat = vs.length ∧ (w.drop (k + 1)).take vs.length = vs
  | .writeMultiRsp a c => u16At w k a ∧ u16At w (k + 2) c
  | .exceptionRsp e => byteAt w k = e.code

/-- The body a decode reads at offset `k`: of the shape of R31, an exception code decoded by R64, any other body in the layout
of R72. -/
def bodyRead (q : Bool) (dir : Dir) (f : Fn) (exc : Bool) (w : Bytes) (k : Nat) (body : Body) : Prop :=
  body.shape = shapeFor (kindOf dir) f exc ∧ (exc = false → bodyAt w k body) ∧
  (exc = true → ∃ e, excDecode q (byteAt w k) = some e ∧ body = .exceptionRsp e)

/-- What a value is after a round trip through a framing: RTU transmits no transaction id and no protocol id (R168). -/
def received : Proto → Frame → Frame
  | .tcp, fr => fr
  | .rtu, fr => { fr with head := { fr.head with transactionId := 0, protocolId := 0 } }

/-- The values the quirk does not alter (R64): with it, an exception response that carries IllegalFunction is lost. -/
def quirkFree (q : Bool) (fr : Frame) : Prop := q = false ∨ fr.body ≠ .exceptionRsp .illegalFunction

/-- Every host duty of R210 that an operation can break is kept: the operands are of their types (R91), at most 255 values
(R113), a WF value to encode (R140, R160), and for an RX_* operation its owner issues it (R49), a push fits (R44) and a discard
does not pass the end (R182). -/
def DutiesKept (i : Instr) (s : State) : Prop :=
  i.wf s.config = true ∧
  ∀ (n : Nat) (st : Stream), streamTarget i = some n → s.streams[n]? = some st →
    st.owner = s.issuer ∧
    (∀ (bs : Bytes) (c : Nat), i = .rxPush n bs → s.rxCapacity = some c → st.buf.length + bs.length ≤ c) ∧
    (∀ k : Nat, i = .rxDiscard n k → k ≤ st.buf.length)

/-- The 31 operation codes of R90. -/
def operationCodes : List Byte :=
  [0x01, 0x02, 0x10, 0x11, 0x12, 0x13, 0x14, 0x15, 0x16, 0x17, 0x18, 0x19, 0x1A, 0x1B, 0x1C, 0x1D, 0x1E, 0x1F, 0x20,
   0x30, 0x31, 0x40, 0x41, 0x42, 0x43, 0x50, 0x51, 0x52, 0x53, 0x54, 0x60]

end Sys2Proof.Claims

open Sys2Proof Sys2Proof.Machine Sys2Proof.Claims

/-! ## The port, the decoder and the run -/

/-- A step takes the operation the host issued next, decodes it and executes it for the agent that issued it; with nothing
pending nothing happens (the model's choice, log 5). What the decoder rejects is refused (R91, R210) or, for a byte of a frame,
returned as the error R65 and R66 name (log 8). -/
def Obligations.StepExecutesTheIssueAtTheHead : Prop :=
  (∀ s : State, s.pending = [] → step s = .next s) ∧
  (∀ (s : State) (i : Issue) (rest : List Issue), s.pending = i :: rest →
    (∀ x, decode i = .ok x → step s = exec x { s with pending := rest, issuer := i.agent }) ∧
    (decode i = .error .unknownOperation → step s = .refused .unknownOperation) ∧
    (decode i = .error .operandOutOfRange → step s = .refused .operandOutOfRange) ∧
    (∀ e, decode i = .error (.wireError e) →
      step s = .next { s with pending := rest, issuer := i.agent, results := s.results ++ [.outcome (.error e)] }))

/-- The decoder and the encoder are inverse to each other: every issue that decodes is the one encoding of its instruction,
and every instruction decodes from its encoding (codes: R90, R62 to R64; the operand form is the model's, log 7). -/
def Obligations.DecodeAndEncodeAreInverse : Prop :=
  ∀ (i : Issue) (x : Instr), decode i = .ok x ↔ i = encode i.agent x

/-- Words of the opcode table, one of each family, decode to their rows' instructions (R90, R62; the operands of zeros and
the order in which rows that share a byte are tried are the model's, log 9). -/
def Obligations.SampleTableWordsDecode : Prop :=
  decodeTableWord 8 0x01 = some (.crcCompute []) ∧
  decodeTableWord 8 0x10 = some (.buildReqReadCoils 0 0 0 0) ∧
  decodeTableWord 8 0x1B = some (.buildRspReadInputRegisters 0 0 []) ∧
  decodeTableWord 8 0x41 = some (.decodeTcpRsp []) ∧
  decodeTableWord 8 0x42 = some (.decodeRtuReq []) ∧
  decodeTableWord 8 0x52 = some (.rxDiscard 0 0) ∧
  decodeTableWord 8 0x60 = some .reset ∧
  decodeTableWord 8 0x03 = some (.wireReqReadMultipleHoldingRegisters []) ∧
  decodeTableWord 8 0x8F = some (.wireRspExceptionWriteMultipleCoils []) ∧
  decodeTableWord 8 0x07 = none

/-- Every operation code that is not in R90's table is refused as UnknownOperation, and no code of the table is (R91). -/
def Obligations.ReservedOperationCodesAreRefused : Prop :=
  ∀ (s : State) (a : Agent) (code : Byte) (operands : List Operand) (rest : List Issue),
    s.pending = { agent := a, port := .operation, code := code, operands := operands } :: rest →
    (code ∉ operationCodes → step s = .refused .unknownOperation) ∧
    (code ∈ operationCodes → step s ≠ .refused .unknownOperation)

/-- An operand outside its type is refused as OperandOutOfRange before anything else: a unit of 256 or more, a u16 of 65536
or more, a function or exception outside its enumeration (R91, R210; the operand form, and that this reason is given before any
other, are the model's, log 7 and log 10). -/
def Obligations.OperandsOutsideTheirTypeAreRefused : Prop :=
  ∀ (s : State) (a : Agent) (code : Byte) (b u x y : Nat) (vs : Bytes) (rest : List Issue),
    (code ∈ [0x10, 0x11, 0x12, 0x13, 0x14, 0x15, 0x1C, 0x1D, 0x1E, 0x1F] → (256 ≤ u ∨ 65536 ≤ x ∨ 65536 ≤ y) →
      s.pending = { agent := a, port := .operation, code := code, operands := [.num b, .num u, .num x, .num y] } :: rest →
      step s = .refused .operandOutOfRange) ∧
    (code ∈ [0x16, 0x17] → (256 ≤ u ∨ 65536 ≤ x ∨ 65536 ≤ y) →
      s.pending = { agent := a, port := .operation, code := code,
                    operands := [.num b, .num u, .num x, .num y, .bytes vs] } :: rest →
      step s = .refused .operandOutOfRange) ∧
    (code ∈ [0x18, 0x19, 0x1A, 0x1B] → 256 ≤ u →
      s.pending = { agent := a, port := .operation, code := code, operands := [.num b, .num u, .bytes vs] } :: rest →
      step s = .refused .operandOutOfRange) ∧
    (code = 0x20 → (256 ≤ u ∨ 8 ≤ x ∨ 5 ≤ y) →
      s.pending = { agent := a, port := .operation, code := code, operands := [.num b, .num u, .num x, .num y] } :: rest →
      step s = .refused .operandOutOfRange) ∧
    (code = 0x02 → 65536 ≤ x →
      s.pending = { agent := a, port := .operation, code := code, operands := [.bytes vs, .num x] } :: rest →
      step s = .refused .operandOutOfRange)

/-- R210: a refused operation changes no state and returns nothing, and the refusal mark is kept for the rest of the run.
(That the run goes on with the next operation, and which of several reasons the mark keeps, are the model's choice, log 6.) -/
def Obligations.RefusalMarkIsKept : Prop :=
  (∀ (r : Run) (e : Refusal), Machine.step r.state = .refused e →
    r.step.mark.isSome = true ∧ r.step.state.builders = r.state.builders ∧ r.step.state.streams = r.state.streams ∧
    r.step.state.results = r.state.results ∧ r.step.state.config = r.state.config ∧
    r.step.state.pending = r.state.pending.tail) ∧
  (∀ (r : Run) (k : Nat) (e : Refusal), r.mark = some e → (r.steps k).mark = some e)

/-- No result that was returned is read again: an operation adds exactly one result, and the results before it affect
neither what it does nor what it returns. The block keeps no last outcome (R22, R20; the list of results is the host's side
of the port, log 4). -/
def Obligations.ResultsAreReturnedAndNotKept : Prop :=
  ∀ (i : Instr) (s : State) (rs : List Result),
    (∀ t, exec i s = .next t → ∃ r, t.results = s.results ++ [r] ∧
      exec i { s with results := rs } = .next { t with results := rs ++ [r] }) ∧
    (∀ e, exec i s = .refused e → exec i { s with results := rs } = .refused e)

/-- R52, R210, R211: an operation completes in one step exactly when every host duty is kept, and is refused exactly when one is
broken; none waits, hangs or faults. -/
def Obligations.CompletesExactlyWhenDutiesAreKept : Prop :=
  ∀ (i : Instr) (s : State),
    ((∃ t, exec i s = .next t) ↔ DutiesKept i s) ∧ ((∃ r, exec i s = .refused r) ↔ ¬ DutiesKept i s)

/-! ## Reset, the configuration and the invariant -/

/-- R34: at power-on every entry of every transaction-id table is 0, every buffer is empty, and the configuration is the
configured one, for every configuration. -/
def Obligations.PowerOnStateIsClear : Prop :=
  ∀ c : Config,
    (State.ofConfig c).config = c ∧
    (∀ bl ∈ (State.ofConfig c).builders, ∀ u : Byte, bl.tids[u.toNat]'u.isLt = 0) ∧
    (∀ st ∈ (State.ofConfig c).streams, st.buf = [])

/-- R220: RESET (operation code 0x60, no operands) completes in every state, returns (), clears every table entry and every
buffer and leaves the configuration; the next TCP build for any unit returns id 1. -/
def Obligations.ResetClearsTablesAndBuffers : Prop :=
  (∀ a, decode { agent := a, port := .operation, code := 0x60, operands := [] } = .ok .reset) ∧
  ∀ s : State, ∃ t, exec .reset s = .next t ∧ t.config = s.config ∧
    (∀ bl ∈ t.builders, ∀ u : Byte, bl.tids[u.toNat]'u.isLt = 0) ∧ (∀ st ∈ t.streams, st.buf = []) ∧
    t.results = s.results ++ [.unit] ∧ t.pending = s.pending ∧ t.issuer = s.issuer ∧
    (∀ (i : Instr) (b : Nat) (u : Byte) (bl : Builder) (t' : State), buildTarget i = some (b, u) →
      t.builders[b]? = some bl → bl.mode = .tcp → exec i t = .next t' →
      ∃ fr, t'.results = t.results ++ [.frame fr] ∧ fr.head.transactionId = 1)

/-- The power-on state of every legal configuration meets the invariant, and so does `State.reset`. -/
def Obligations.InvariantHoldsAtPowerOn : Prop :=
  (∀ c : Config, c.wf = true → (State.ofConfig c).Inv) ∧ State.reset.Inv

/-- Every step keeps the invariant, from every state that meets it: the configuration is legal (R8, R23), no buffer is past
RX_CAPACITY (R27, R44), and every frame value a builder or a decoder returned is WF (R32). -/
def Obligations.EveryStepKeepsTheInvariant : Prop :=
  ∀ s t : State, s.Inv → step s = .next t → t.Inv

/-- The configuration fields are read-only to every operation (R20, R23, R222). -/
def Obligations.NoStepWritesTheConfiguration : Prop :=
  ∀ s t : State, step s = .next t → t.config = s.config

/-- R25, R27, R40: only the 17 builders and RESET write a transaction-id table, only the RX_* operations and RESET write a
buffer, and what an operation other than a builder does and returns does not depend on any table, so no operation reads a
table back to the host. -/
def Obligations.OnlyBuildersReachTablesAndOnlyStreamsBuffers : Prop :=
  ∀ (i : Instr) (s t : State), i ≠ .reset → exec i s = .next t →
    (buildTarget i = none → t.builders = s.builders ∧
      ∀ bls : List Builder, exec i { s with builders := bls } = .next { t with builders := bls }) ∧
    (streamTarget i = none → t.streams = s.streams ∧
      ∀ sts : List Stream, exec i { s with streams := sts } = .next { t with streams := sts })

/-! ## The CRC16 Engine -/

/-- R102: CRC_COMPUTE completes in every state and returns `crc16(bs)`, changing nothing; operation code 0x01 with a byte
sequence decodes to it (code: R90; that the operand list is this one is the model's choice, log 7). -/
def Obligations.CrcComputeReturnsTheCrc : Prop :=
  (∀ (bs : Bytes) (s : State), exec (.crcCompute bs) s = .next (returning s (.word (crc16 bs)))) ∧
  (∀ a bs, decode { agent := a, port := .operation, code := 0x01, operands := [.bytes bs] } = .ok (.crcCompute bs)) ∧
  crc16 [] = 0xFFFF ∧ crc16 [0x00] = 0x40BF ∧ crc16 [0xFF] = 0x00FF ∧
  crc16 [0x0B, 0x01, 0x00, 0x1D, 0x00, 0x1F] = 0x6EED

/-- R103: CRC_CHECK completes in every state and returns whether `crc16(bs)` is the candidate, changing nothing; operation
code 0x02 with a byte sequence and a number decodes to it (code: R90; that the operand list is this one is the model's choice,
log 7). -/
def Obligations.CrcCheckComparesTheCrc : Prop :=
  (∀ (bs : Bytes) (c : U16) (s : State), exec (.crcCheck bs c) s = .next (returning s (.bool (decide (crc16 bs = c))))) ∧
  (∀ (a : Agent) (bs : Bytes) (c : U16),
    decode { agent := a, port := .operation, code := 0x02, operands := [.bytes bs, .num c.toNat] } = .ok (.crcCheck bs c)) ∧
  crc16 [] = 0xFFFF ∧ crc16 [0x0B, 0x01, 0x00, 0x1D, 0x00, 0x1F] ≠ 0xED6E ∧ crc16 [0x0A, 0x81, 0x02] = 0x53B0

/-- The bit loop of R100 is the 256-entry table form that R100 allows: for every register and every byte, the step is the
table's entry at the low byte XOR the input, XORed with the register's high byte. -/
def Obligations.CrcStepEqualsItsTableForm : Prop :=
  ∀ (c : U16) (x : Byte),
    crcStep c x = (c >>> 8) ^^^ crcRounds 8 ((c.extractLsb' 0 8 ^^^ x).setWidth 16)

/-- R104(b), for every byte sequence: the CRC of a sequence followed by its own CRC, low byte first, is 0. -/
def Obligations.CrcResidueIsZero : Prop :=
  ∀ p : Bytes, crc16 (p ++ le16 (crc16 p)) = 0x0000

/-- R104(c), the CRC's part: changing one byte of a sequence to a different value changes its CRC. -/
def Obligations.CrcDetectsAnyChangedByte : Prop :=
  ∀ (p : Bytes) (i : Nat) (x y : Byte), p[i]? = some x → y ≠ x → crc16 (p.set i y) ≠ crc16 p

/-- R104(c): change any one byte of a correct RTU frame to a different value, keeping the length. If neither the
classification of the function byte nor the inferred body length alters, the decoder raises InvalidChecksum. -/
def Obligations.CorruptedRtuByteRaisesInvalidChecksum : Prop :=
  ∀ (q : Bool) (dir : Dir) (bs : Bytes) (v : Frame) (i : Nat) (x y : Byte) (f : Fn) (exc : Bool),
    rtuDecode q dir bs = .frame v bs.length → bs[i]? = some x → y ≠ x →
    classify dir (byteAt bs 1) = .ok (f, exc) → classify dir (byteAt (bs.set i y) 1) = .ok (f, exc) →
    rtuBlen dir f exc (bs.set i y) = rtuBlen dir f exc bs →
    rtuDecode q dir (bs.set i y) = .error (.invalidChecksum (rdLe16 (bs.set i y) (bs.length - 2)))

/-! ## The Frame Builder -/

/-- R114 to R121 with R111 to R113: the eight request builders complete on every builder that exists, in TCP and in RTU mode,
and return the request of their function with the id R111 and R112 give; nothing but that builder's table changes. -/
def Obligations.RequestBuildersReturnTheirFrame : Prop :=
  ∀ (b : Nat) (u : Byte) (x y : U16) (vs : Bytes),
    Builds (.buildReqReadCoils b u x y) b u (requestFrame 6 u .readCoils (.readReq x y)) ∧
    Builds (.buildReqReadDiscreteInputs b u x y) b u (requestFrame 6 u .readDiscreteInputs (.readReq x y)) ∧
    Builds (.buildReqReadHoldingRegisters b u x y) b u (requestFrame 6 u .readMultipleHoldingRegisters (.readReq x y)) ∧
    Builds (.buildReqReadInputRegisters b u x y) b u (requestFrame 6 u .readInputRegisters (.readReq x y)) ∧
    Builds (.buildReqWriteSingleCoil b u x y) b u (requestFrame 6 u .writeSingleCoil (.writeSingle x y)) ∧
    Builds (.buildReqWriteSingleRegister b u x y) b u (requestFrame 6 u .writeSingleHoldingRegister (.writeSingle x y)) ∧
    (vs.length ≤ 255 → Builds (.buildReqWriteMultipleCoils b u x y vs) b u
      (requestFrame (BitVec.ofNat 16 (7 + vs.length)) u .writeMultipleCoils (.writeMultiReq x y vs))) ∧
    (vs.length ≤ 255 → Builds (.buildReqWriteMultipleRegisters b u x y vs) b u
      (requestFrame (BitVec.ofNat 16 (7 + vs.length)) u .writeMultipleHoldingRegisters (.writeMultiReq x y vs)))

/-- R122 to R127, R129 and R130 with R111 to R113: the eight response builders complete on every builder that exists, in TCP
and in RTU mode, and return the response of their function; nothing but that builder's table changes. -/
def Obligations.ResponseBuildersReturnTheirFrame : Prop :=
  ∀ (b : Nat) (u : Byte) (x y : U16) (vs : Bytes),
    (vs.length ≤ 255 → Builds (.buildRspReadCoils b u vs) b u
      (responseFrame (BitVec.ofNat 16 (3 + vs.length)) u .readCoils false (.readRsp vs))) ∧
    (vs.length ≤ 255 → Builds (.buildRspReadDiscreteInputs b u vs) b u
      (responseFrame (BitVec.ofNat 16 (3 + vs.length)) u .readDiscreteInputs false (.readRsp vs))) ∧
    (vs.length ≤ 255 → Builds (.buildRspReadHoldingRegisters b u vs) b u
      (responseFrame (BitVec.ofNat 16 (3 + vs.length)) u .readMultipleHoldingRegisters false (.readRsp vs))) ∧
    (vs.length ≤ 255 → Builds (.buildRspReadInputRegisters b u vs) b u
      (responseFrame (BitVec.ofNat 16 (3 + vs.length)) u .readInputRegisters false (.readRsp vs))) ∧
    Builds (.buildRspWriteSingleCoil b u x y) b u (responseFrame 6 u .writeSingleCoil false (.writeSingle x y)) ∧
    Builds (.buildRspWriteSingleRegister b u x y) b u (responseFrame 6 u .writeSingleHoldingRegister false (.writeSingle x y)) ∧
    Builds (.buildRspWriteMultipleCoils b u x y) b u (responseFrame 6 u .writeMultipleCoils false (.writeMultiRsp x y)) ∧
    Builds (.buildRspWriteMultipleRegisters b u x y) b u (responseFrame 6 u .writeMultipleHoldingRegisters false (.writeMultiRsp x y))

/-- R128: BUILD_EXCEPTION completes on every builder that exists for all 40 combinations of function and exception, and
returns an exception response of length 3 whose head keeps the original function. -/
def Obligations.ExceptionBuilderReturnsItsFrame : Prop :=
  ∀ (b : Nat) (u : Byte) (f : Fn) (e : Exc),
    Builds (.buildException b u f e) b u (responseFrame 3 u f true (.exceptionRsp e))

/-- R111: in TCP mode the id is one more than the last, and 1 after 0xFFFF; it is never 0; it is recorded as the unit's last
id, and no other unit's entry changes. -/
def Obligations.TcpAllocationRule : Prop :=
  ∀ (i : Instr) (b : Nat) (u : Byte) (s t : State) (bl : Builder),
    buildTarget i = some (b, u) → s.builders[b]? = some bl → bl.mode = .tcp → exec i s = .next t →
    ∃ fr bl', t.results = s.results ++ [.frame fr] ∧ t.builders[b]? = some bl' ∧
      (bl.tids[u.toNat]'u.isLt = 0xFFFF → fr.head.transactionId = 0x0001) ∧
      (bl.tids[u.toNat]'u.isLt ≠ 0xFFFF → fr.head.transactionId = bl.tids[u.toNat]'u.isLt + 1) ∧
      fr.head.transactionId ≠ 0 ∧ bl'.tids[u.toNat]'u.isLt = fr.head.transactionId ∧
      ∀ v : Byte, v ≠ u → bl'.tids[v.toNat]'v.isLt = bl.tids[v.toNat]'v.isLt

/-- R112: in RTU mode every build has transaction id 0, and the table is neither written nor read: the same frame is built
whatever the table holds. -/
def Obligations.RtuModeLeavesTheTableAlone : Prop :=
  ∀ (i : Instr) (b : Nat) (u : Byte) (s t : State) (bl : Builder),
    buildTarget i = some (b, u) → s.builders[b]? = some bl → bl.mode = .rtu → exec i s = .next t →
    t.builders = s.builders ∧ ∃ fr, t.results = s.results ++ [.frame fr] ∧ fr.head.transactionId = 0 ∧
      ∀ (tids : TidTable), ∃ t', exec i { s with builders := s.builders.set b { bl with tids := tids } } = .next t' ∧
        t'.results = s.results ++ [.frame fr]

/-- Every frame a builder returns is WF, with protocol id 0, the unit it was built for, and length 2 + blen (R113, R32). -/
def Obligations.BuiltFramesAreWellFormed : Prop :=
  ∀ (i : Instr) (b : Nat) (u : Byte) (s t : State), buildTarget i = some (b, u) → exec i s = .next t →
    ∃ fr, t.results = s.results ++ [.frame fr] ∧ fr.wf = true ∧ fr.head.protocolId = 0 ∧ fr.head.unitId = u ∧
      fr.head.length.toNat = 2 + fr.body.blen

/-- The frame of the 17 builders: nothing but `T[b][unit]` changes (R110, R132). Every other builder, every other unit of
this builder, every stream, the configuration and the host's queue are as before; one result is added. -/
def Obligations.BuildersChangeOneTableEntryOnly : Prop :=
  ∀ (i : Instr) (b : Nat) (u : Byte) (s t : State), buildTarget i = some (b, u) → exec i s = .next t →
    t.streams = s.streams ∧ t.config = s.config ∧ t.pending = s.pending ∧ t.issuer = s.issuer ∧
    (∃ r, t.results = s.results ++ [r]) ∧ t.builders.length = s.builders.length ∧
    (∀ b' : Nat, b' ≠ b → t.builders[b']? = s.builders[b']?) ∧
    (∀ bl bl' : Builder, s.builders[b]? = some bl → t.builders[b]? = some bl' →
      bl'.mode = bl.mode ∧ ∀ v : Byte, v ≠ u → bl'.tids[v.toNat]'v.isLt = bl.tids[v.toNat]'v.isLt)

/-- R131: among any builds on any builders and for any units, the k-th (from 0) for one unit of one TCP builder that has issued
no id yields id (k mod 65535) + 1. So ids repeat with period 65535, and any 65535 consecutive ones are pairwise distinct;
builds for other units and on other builders do not advance the sequence. -/
def Obligations.TransactionIdSequence : Prop :=
  ∀ (is : List Instr) (b : Nat) (u : Byte) (s t : State) (bl : Builder),
    (∀ i ∈ is, (buildTarget i).isSome = true) → s.builders[b]? = some bl → bl.mode = .tcp →
    bl.tids[u.toNat]'u.isLt = 0 → execAll is s = .next t →
    ∃ rs, t.results = s.results ++ rs ∧ rs.length = is.length ∧
      idsFor b u is rs =
        (List.range (is.countP (fun i => decide (buildTarget i = some (b, u))))).map
          (fun k => BitVec.ofNat 16 (k % 65535 + 1)) ∧
      (∀ (j k : Nat) (x y : U16), (idsFor b u is rs)[j]? = some x → (idsFor b u is rs)[k]? = some y →
        j < k → k < j + 65535 → x ≠ y) ∧
      (∀ (k : Nat) (x : U16), (idsFor b u is rs)[k + 65535]? = some x → (idsFor b u is rs)[k]? = some x)

/-- R48: when two agents' builds for one unit of one TCP builder are pending, whichever comes first, they receive different
ids, consecutive in the order of R47, and the table holds the second. -/
def Obligations.ConcurrentBuildsGetConsecutiveIds : Prop :=
  ∀ (s s₁ s₂ : State) (i j : Issue) (x y : Instr) (rest : List Issue) (b : Nat) (u : Byte) (bl : Builder),
    s.pending = i :: j :: rest → decode i = .ok x → decode j = .ok y →
    buildTarget x = some (b, u) → buildTarget y = some (b, u) → s.builders[b]? = some bl → bl.mode = .tcp →
    step s = .next s₁ → step s₁ = .next s₂ →
    ∃ f₁ f₂ bl₂, s₂.results = s.results ++ [.frame f₁, .frame f₂] ∧ s₂.builders[b]? = some bl₂ ∧
      f₁.head.transactionId = idIssued bl u ∧
      f₂.head.transactionId = (if idIssued bl u = 0xFFFF then 0x0001 else idIssued bl u + 1) ∧
      f₁.head.transactionId ≠ f₂.head.transactionId ∧ bl₂.tids[u.toNat]'u.isLt = f₂.head.transactionId

/-- The builders' refusals: a builder index that does not exist (R91) for all 17, and more than 255 values for the six that
take values (R113, R210). Which reason is given where both hold is the model's choice (log 10). -/
def Obligations.BuildersRefuseBadIndexAndLongValues : Prop :=
  (∀ (i : Instr) (b : Nat) (u : Byte) (s : State), buildTarget i = some (b, u) → s.builders.length ≤ b →
    exec i s = .refused .operandOutOfRange) ∧
  (∀ (b : Nat) (u : Byte) (x y : U16) (vs : Bytes) (s : State), b < s.builders.length → 255 < vs.length →
    exec (.buildReqWriteMultipleCoils b u x y vs) s = .refused .valuesTooLong ∧
    exec (.buildReqWriteMultipleRegisters b u x y vs) s = .refused .valuesTooLong ∧
    exec (.buildRspReadCoils b u vs) s = .refused .valuesTooLong ∧
    exec (.buildRspReadDiscreteInputs b u vs) s = .refused .valuesTooLong ∧
    exec (.buildRspReadHoldingRegisters b u vs) s = .refused .valuesTooLong ∧
    exec (.buildRspReadInputRegisters b u vs) s = .refused .valuesTooLong)

/-! ## The wire formats -/

/-- R65: all 256 function bytes are classified; 8 are legal in REQ and 16 in RSP, and every other byte makes both decoders
raise InvalidFunctionCode as soon as their head is complete. -/
def Obligations.EveryFunctionByteIsClassified : Prop :=
  ∀ (dir : Dir) (fb : Byte),
    ((∃ f exc, classify dir fb = .ok (f, exc)) ↔ fb ∈ legalBytes dir) ∧
    (fb ∉ legalBytes dir → ∀ (q : Bool) (bs : Bytes),
      (8 ≤ bs.length → byteAt bs 7 = fb → tcpDecode q dir bs = .error (.invalidFunctionCode fb)) ∧
      (2 ≤ bs.length → byteAt bs 1 = fb → rtuDecode q dir bs = .error (.invalidFunctionCode fb)))

/-- R64, R66: without the quirk exception decode is the inverse of the encode table; no other code decodes, with or without
it; the quirk alters code 0x01 alone, which then gives IllegalDataValue. -/
def Obligations.ExceptionCodesDecode : Prop :=
  Exc.code .illegalFunction = 0x01 ∧ Exc.code .illegalDataAddress = 0x02 ∧ Exc.code .illegalDataValue = 0x03 ∧
  Exc.code .slaveDeviceFailure = 0x04 ∧ Exc.code .acknowledge = 0x05 ∧
  (∀ (x : Byte) (e : Exc), excDecode false x = some e ↔ x = e.code) ∧
  (∀ (q : Bool) (x : Byte), x ∉ [0x01, 0x02, 0x03, 0x04, 0x05] → excDecode q x = none) ∧
  excDecode true 0x01 = some .illegalDataValue ∧ (∀ x : Byte, x ≠ 0x01 → excDecode true x = excDecode false x)

/-- The wire lengths (R73, R71, R140, R160): a body has blen bytes, a TCP frame 8 + blen bytes, from 9 to 268, an RTU frame
4 + blen bytes, from 5 to 264. -/
def Obligations.WireLengths : Prop :=
  ∀ fr : Frame, fr.wf = true →
    (encBody fr.body).length = fr.body.blen ∧
    (tcpEncode fr).length = 8 + fr.body.blen ∧ (tcpEncode fr).length = 6 + fr.head.length.toNat ∧
    9 ≤ (tcpEncode fr).length ∧ (tcpEncode fr).length ≤ 268 ∧
    (rtuEncode fr).length = 4 + fr.body.blen ∧ 5 ≤ (rtuEncode fr).length ∧ (rtuEncode fr).length ≤ 264

/-- R140: ENCODE_TCP completes on every WF value in every state, changes nothing and returns the bytes of R70: big-endian
transaction id, protocol id and length as stored, unit id, function byte, and the body in the layout of R72 and R73. It refuses
every other value. -/
def Obligations.EncodeTcpReturnsTheWireBytes : Prop :=
  ∀ (fr : Frame) (s : State),
    (fr.wf = false → exec (.encodeTcp fr) s = .refused .notWellFormed) ∧
    (fr.wf = true → ∃ w : Bytes, exec (.encodeTcp fr) s = .next (returning s (.bytes w)) ∧
      u16At w 0 fr.head.transactionId ∧ u16At w 2 fr.head.protocolId ∧ u16At w 4 fr.head.length ∧
      byteAt w 6 = fr.head.unitId ∧
      byteAt w 7 = fr.head.function.code ||| (if fr.head.isException then 0x80 else 0x00) ∧
      w.drop 8 = encBody fr.body ∧ w.length = 8 + fr.body.blen ∧ bodyAt w 8 fr.body)

/-- R160: ENCODE_RTU completes on every WF value in every state, changes nothing and returns the bytes of R80: unit id,
function byte, the body in the layout of R72 and R73, and the CRC of all of these, low byte first; the transaction id, protocol
id and length do not affect them. It refuses every other value. -/
def Obligations.EncodeRtuReturnsTheWireBytes : Prop :=
  ∀ (fr : Frame) (s : State),
    (fr.wf = false → exec (.encodeRtu fr) s = .refused .notWellFormed) ∧
    (fr.wf = true → ∃ w : Bytes, exec (.encodeRtu fr) s = .next (returning s (.bytes w)) ∧
      byteAt w 0 = fr.head.unitId ∧
      byteAt w 1 = fr.head.function.code ||| (if fr.head.isException then 0x80 else 0x00) ∧
      (w.drop 2).take fr.body.blen = encBody fr.body ∧ w.length = 4 + fr.body.blen ∧
      bodyAt w 2 fr.body ∧
      (crc16 (w.take (2 + fr.body.blen))).toNat =
        (byteAt w (2 + fr.body.blen)).toNat + (byteAt w (3 + fr.body.blen)).toNat * 256 ∧
      ∀ tid pid len : U16,
        rtuEncode { fr with head := { fr.head with transactionId := tid, protocolId := pid, length := len } } = w)

/-- R147: every WF value decodes back from its TCP bytes, all of them consumed; under the quirk exactly the exception responses
that carry IllegalFunction do not. -/
def Obligations.TcpRoundTrip : Prop :=
  ∀ (q : Bool) (fr : Frame), fr.wf = true →
    (quirkFree q fr → tcpDecode q (dirOf fr.kind) (tcpEncode fr) = .frame fr (tcpEncode fr).length) ∧
    (¬ quirkFree q fr → tcpDecode q (dirOf fr.kind) (tcpEncode fr) ≠ .frame fr (tcpEncode fr).length)

/-- R148: every proper prefix of a TCP frame is Incomplete, and the whole frame decodes whatever is appended to it. -/
def Obligations.TcpPartialFrameStability : Prop :=
  ∀ (q : Bool) (fr : Frame), fr.wf = true →
    (∀ j, j < (tcpEncode fr).length → tcpDecode q (dirOf fr.kind) ((tcpEncode fr).take j) = .incomplete) ∧
    (quirkFree q fr → ∀ y : Bytes,
      tcpDecode q (dirOf fr.kind) (tcpEncode fr ++ y) = .frame fr (tcpEncode fr).length)

/-- R168: every WF value decodes back from its RTU bytes with transaction id and protocol id 0, which is the value itself
exactly when both were 0; every proper prefix is Incomplete; appended bytes do not change the outcome; under the quirk an
exception response that carries IllegalFunction does not come back. -/
def Obligations.RtuRoundTripAndStability : Prop :=
  ∀ (q : Bool) (fr : Frame), fr.wf = true →
    (quirkFree q fr → ∀ y : Bytes,
      rtuDecode q (dirOf fr.kind) (rtuEncode fr ++ y) = .frame (received .rtu fr) (rtuEncode fr).length) ∧
    (∀ j, j < (rtuEncode fr).length → rtuDecode q (dirOf fr.kind) ((rtuEncode fr).take j) = .incomplete) ∧
    (received .rtu fr = fr ↔ fr.head.transactionId = 0 ∧ fr.head.protocolId = 0) ∧
    (∀ y : Bytes, rtuDecode q (dirOf fr.kind) (rtuEncode fr ++ y) = rtuDecode q (dirOf fr.kind) (rtuEncode fr)) ∧
    (¬ quirkFree q fr →
      rtuDecode q (dirOf fr.kind) (rtuEncode fr) ≠ .frame (received .rtu fr) (rtuEncode fr).length)

/-- R145: every frame `tcp_decode` returns is WF, and the bytes it occupies are 6 + length. -/
def Obligations.TcpDecodedFramesAreWellFormed : Prop :=
  ∀ (q : Bool) (dir : Dir) (bs : Bytes) (v : Frame) (n : Nat), tcpDecode q dir bs = .frame v n →
    v.wf = true ∧ v.head.length.toNat = 2 + v.body.blen ∧ n = 6 + v.head.length.toNat ∧ n ≤ bs.length ∧
    (v.kind = .request → v.head.isException = false) ∧ v.body.values.length ≤ 255

/-- R165: every frame `rtu_decode` returns is WF, its length is 2 + blen, and the bytes it occupies are 4 + blen. Its
transaction id and protocol id are 0 (R161, R169; that the protocol id is 0 is the spec's own choice, D16). -/
def Obligations.RtuDecodedFramesAreWellFormed : Prop :=
  ∀ (q : Bool) (dir : Dir) (bs : Bytes) (v : Frame) (n : Nat), rtuDecode q dir bs = .frame v n →
    v.wf = true ∧ v.head.length.toNat = 2 + v.body.blen ∧ n = 4 + v.body.blen ∧ n ≤ bs.length ∧
    v.head.transactionId = 0 ∧ v.head.protocolId = 0

/-- R164: the RTU decoder cannot raise LengthMismatch. -/
def Obligations.RtuNeverRaisesLengthMismatch : Prop :=
  ∀ (q : Bool) (dir : Dir) (bs : Bytes) (len : U16), rtuDecode q dir bs ≠ .error (.lengthMismatch len)

/-- A request decode never raises UnrecognizedExceptionCode, and the value it returns is a Request without the exception
flag; a response decode returns a Response whose flag is bit 7 of its function byte (R142, R144, R162, R166). -/
def Obligations.DecodedKindAndFlag : Prop :=
  ∀ (q : Bool) (bs : Bytes) (x : Byte) (v : Frame) (n : Nat),
    tcpDecode q .req bs ≠ .error (.unrecognizedExceptionCode x) ∧
    rtuDecode q .req bs ≠ .error (.unrecognizedExceptionCode x) ∧
    (tcpDecode q .req bs = .frame v n ∨ rtuDecode q .req bs = .frame v n →
      v.kind = .request ∧ v.head.isException = false) ∧
    (tcpDecode q .rsp bs = .frame v n → v.kind = .response ∧ v.head.isException = (byteAt bs 7).getLsbD 7) ∧
    (rtuDecode q .rsp bs = .frame v n → v.kind = .response ∧ v.head.isException = (byteAt bs 1).getLsbD 7)

/-- R149: within one TCP decode the first condition in this order decides: fewer than 8 bytes, an illegal function byte, a
length below 2, a missing body, a body of the wrong size, an unknown exception code, and otherwise a frame, whose head and body
are the bytes' own (R141, R72, R74). (That the order of the steps is the priority, and the LengthMismatch outcome, are the spec's own reading, D15, D4, D5; that LengthMismatch carries
the length field is R202's, log 11.) -/
def Obligations.TcpOutcomePriority : Prop :=
  ∀ (q : Bool) (dir : Dir) (bs : Bytes),
    (bs.length < 8 → tcpDecode q dir bs = .incomplete) ∧
    (8 ≤ bs.length → byteAt bs 7 ∉ legalBytes dir → tcpDecode q dir bs = .error (.invalidFunctionCode (byteAt bs 7))) ∧
    (8 ≤ bs.length → byteAt bs 7 ∈ legalBytes dir → (rdBe16 bs 4).toNat < 2 →
      tcpDecode q dir bs = .error (.lengthMismatch (rdBe16 bs 4))) ∧
    (8 ≤ bs.length → byteAt bs 7 ∈ legalBytes dir → 2 ≤ (rdBe16 bs 4).toNat → bs.length < 6 + (rdBe16 bs 4).toNat →
      tcpDecode q dir bs = .incomplete) ∧
    (∀ (f : Fn) (exc : Bool) (body : Bytes),
      byteAt bs 7 = f.code ||| (if exc then 0x80 else 0x00) → byteAt bs 7 ∈ legalBytes dir →
      2 ≤ (rdBe16 bs 4).toNat → 8 ≤ bs.length → 6 + (rdBe16 bs 4).toNat ≤ bs.length →
      body = (bs.drop 8).take ((rdBe16 bs 4).toNat - 2) →
      (bodyLength dir f exc body ≠ some body.length →
        tcpDecode q dir bs = .error (.lengthMismatch (rdBe16 bs 4))) ∧
      (bodyLength dir f exc body = some body.length → exc = true → excDecode q (byteAt body 0) = none →
        tcpDecode q dir bs = .error (.unrecognizedExceptionCode (byteAt body 0))) ∧
      (bodyLength dir f exc body = some body.length → (exc = true → excDecode q (byteAt body 0) ≠ none) →
        ∃ v, tcpDecode q dir bs = .frame v (6 + (rdBe16 bs 4).toNat) ∧
          v.head.transactionId = rdBe16 bs 0 ∧ v.head.protocolId = rdBe16 bs 2 ∧ v.head.unitId = byteAt bs 6 ∧
          v.head.function = f ∧ v.head.isException = exc ∧ bodyRead q dir f exc bs 8 v.body))

/-- R167: within one RTU decode the first condition in this order decides: fewer than 2 bytes, an illegal function byte, a
missing peeked byte, a missing body, a missing CRC, a wrong CRC, an unknown exception code, and otherwise a frame,
whose head and body are the bytes' own (R161, R72, R74). (That the order of the steps is the priority is the spec's own reading,
D15.) -/
def Obligations.RtuOutcomePriority : Prop :=
  ∀ (q : Bool) (dir : Dir) (bs : Bytes),
    (bs.length < 2 → rtuDecode q dir bs = .incomplete) ∧
    (2 ≤ bs.length → byteAt bs 1 ∉ legalBytes dir → rtuDecode q dir bs = .error (.invalidFunctionCode (byteAt bs 1))) ∧
    (∀ (f : Fn) (exc : Bool),
      2 ≤ bs.length → byteAt bs 1 = f.code ||| (if exc then 0x80 else 0x00) → byteAt bs 1 ∈ legalBytes dir →
      (bodyLength dir f exc (bs.drop 2) = none → rtuDecode q dir bs = .incomplete) ∧
      (∀ bl : Nat, bodyLength dir f exc (bs.drop 2) = some bl →
        (bs.length < 2 + bl → rtuDecode q dir bs = .incomplete) ∧
        (2 + bl ≤ bs.length → bs.length < 4 + bl → rtuDecode q dir bs = .incomplete) ∧
        (4 + bl ≤ bs.length → crc16 (bs.take (2 + bl)) ≠ rdLe16 bs (2 + bl) →
          rtuDecode q dir bs = .error (.invalidChecksum (rdLe16 bs (2 + bl)))) ∧
        (4 + bl ≤ bs.length → crc16 (bs.take (2 + bl)) = rdLe16 bs (2 + bl) → exc = true →
          excDecode q (byteAt bs 2) = none →
          rtuDecode q dir bs = .error (.unrecognizedExceptionCode (byteAt bs 2))) ∧
        (4 + bl ≤ bs.length → crc16 (bs.take (2 + bl)) = rdLe16 bs (2 + bl) →
          (exc = true → excDecode q (byteAt bs 2) ≠ none) →
          ∃ v, rtuDecode q dir bs = .frame v (4 + bl) ∧ v.head.unitId = byteAt bs 0 ∧ v.head.function = f ∧
            v.head.isException = exc ∧ bodyRead q dir f exc bs 2 v.body)))

/-- The length-inference function of R77, whose offsets count from the unit id, gives the request table of R75 and the
response table of R76, whose offsets count from the body. -/
def Obligations.RtuLengthInferenceMatchesTheTables : Prop :=
  ∀ (dir : Dir) (f : Fn) (exc : Bool) (u fb : Byte) (body : Bytes), (dir = .req → exc = false) →
    rtuBlen dir f exc (u :: fb :: body) = bodyLength dir f exc body ∧
    (dir = .req → f.group = .read ∨ f.group = .wsingle → bodyLength dir f exc body = some 4) ∧
    (dir = .req → f.group = .wmulti → bodyLength dir f exc body = body[4]?.map (fun n => n.toNat + 5)) ∧
    (dir = .rsp → exc = true → bodyLength dir f exc body = some 1) ∧
    (dir = .rsp → exc = false → f.group = .read → bodyLength dir f exc body = body[0]?.map (fun n => n.toNat + 1)) ∧
    (dir = .rsp → exc = false → f.group = .wsingle ∨ f.group = .wmulti → bodyLength dir f exc body = some 4)

/-- R142, R144, R162, R166: the four decodes of an operand buffer complete on every byte sequence in every state, return the
outcome of their decoder in their direction, and change nothing, whatever the outcome (R203). -/
def Obligations.OperandDecodesReturnTheOutcome : Prop :=
  ∀ (bs : Bytes) (s : State),
    exec (.decodeTcpReq bs) s = .next (returning s (.outcome (tcpDecode s.refExcQuirk .req bs))) ∧
    exec (.decodeTcpRsp bs) s = .next (returning s (.outcome (tcpDecode s.refExcQuirk .rsp bs))) ∧
    exec (.decodeRtuReq bs) s = .next (returning s (.outcome (rtuDecode s.refExcQuirk .req bs))) ∧
    exec (.decodeRtuRsp bs) s = .next (returning s (.outcome (rtuDecode s.refExcQuirk .rsp bs)))

/-! ## Receive streams -/

/-- R180: RX_PUSH by the owner of at least one byte, within RX_CAPACITY, completes: the bytes join the end of the buffer, and
nothing else changes. The same bytes pushed in any split into pieces of at least one byte, one at a time or all at once, leave the
same buffer. -/
def Obligations.RxPushAppends : Prop :=
  ∀ (s : State) (n : Nat) (st : Stream) (bs : Bytes),
    s.streams[n]? = some st → st.owner = s.issuer → bs ≠ [] →
    (∀ c, s.rxCapacity = some c → st.buf.length + bs.length ≤ c) →
    exec (.rxPush n bs) s = .next { s with
      streams := s.streams.set n { st with buf := st.buf ++ bs }, results := s.results ++ [.unit] } ∧
    (∀ xs : List Bytes, (∀ x ∈ xs, x ≠ []) → xs.flatten = bs →
      execAll (xs.map (.rxPush n)) s = .next { s with
        streams := s.streams.set n { st with buf := st.buf ++ bs },
        results := s.results ++ List.replicate xs.length .unit })

/-- R181, R203: RX_DECODE by the owner completes in every state. On a frame its bytes leave the front of the buffer and the
rest stays; on Incomplete and on every error nothing changes. The outcome is returned. -/
def Obligations.RxDecodeConsumesOnlyAFrame : Prop :=
  ∀ (s : State) (n : Nat) (st : Stream), s.streams[n]? = some st → st.owner = s.issuer →
    (∀ v k, streamDecode s.refExcQuirk st.proto st.dir st.buf = .frame v k →
      k ≤ st.buf.length ∧
      exec (.rxDecode n) s = .next { s with
        streams := s.streams.set n { st with buf := st.buf.drop k },
        results := s.results ++ [.outcome (.frame v k)] }) ∧
    (streamDecode s.refExcQuirk st.proto st.dir st.buf = .incomplete →
      exec (.rxDecode n) s = .next (returning s (.outcome .incomplete))) ∧
    (∀ e, streamDecode s.refExcQuirk st.proto st.dir st.buf = .error e →
      exec (.rxDecode n) s = .next (returning s (.outcome (.error e))))

/-- R182, R183: RX_DISCARD by the owner of at most the buffered bytes completes and drops them from the front; of 0 it changes
nothing; of all it leaves what RX_FLUSH leaves. RX_FLUSH by the owner completes and empties the buffer. -/
def Obligations.RxDiscardAndFlushDropBytes : Prop :=
  ∀ (s : State) (n k : Nat) (st : Stream), s.streams[n]? = some st → st.owner = s.issuer →
    (k ≤ st.buf.length → exec (.rxDiscard n k) s = .next { s with
      streams := s.streams.set n { st with buf := st.buf.drop k }, results := s.results ++ [.unit] }) ∧
    exec (.rxDiscard n 0) s = .next (returning s .unit) ∧
    exec (.rxDiscard n st.buf.length) s = exec (.rxFlush n) s ∧
    exec (.rxFlush n) s = .next { s with
      streams := s.streams.set n { st with buf := [] }, results := s.results ++ [.unit] }

/-- R184, R185: RX_STATUS by the owner completes, changes nothing, and returns the buffer's length and its phase: COMPLETE
when a decode would return a frame, ERROR when it would return an error, and otherwise the part of the frame that is
missing. -/
def Obligations.RxStatusReportsLengthAndPhase : Prop :=
  ∀ (s : State) (n : Nat) (st : Stream), s.streams[n]? = some st → st.owner = s.issuer →
    ∃ p, exec (.rxStatus n) s = .next (returning s (.status st.buf.length p)) ∧
      (p = .complete ↔ ∃ v k, streamDecode s.refExcQuirk st.proto st.dir st.buf = .frame v k) ∧
      (p = .error ↔ ∃ e, streamDecode s.refExcQuirk st.proto st.dir st.buf = .error e) ∧
      (streamDecode s.refExcQuirk st.proto st.dir st.buf = .incomplete →
        (st.proto = .tcp → p = if st.buf.length < 8 then .awaitHead else .awaitBody) ∧
        (st.proto = .rtu → st.buf.length < 2 → p = .awaitHead) ∧
        (∀ f exc, st.proto = .rtu → 2 ≤ st.buf.length → classify st.dir (byteAt st.buf 1) = .ok (f, exc) →
          (rtuBlen st.dir f exc st.buf = none → p = .awaitCount) ∧
          (∀ bl, rtuBlen st.dir f exc st.buf = some bl →
            p = if st.buf.length < 2 + bl then .awaitBody else .awaitCrc)))

/-- R49: an RX_* operation issued by an agent that does not own the stream is refused; every other operation does the same
whichever agent issues it; and no operation changes an owner. -/
def Obligations.OnlyTheOwnerReachesAStream : Prop :=
  (∀ (i : Instr) (n : Nat) (s : State) (st : Stream), streamTarget i = some n → s.streams[n]? = some st →
    st.owner ≠ s.issuer → ∃ r, exec i s = .refused r) ∧
  (∀ (i : Instr) (s : State) (a : Agent), streamTarget i = none →
    (∀ t, exec i s = .next t → exec i { s with issuer := a } = .next { t with issuer := a }) ∧
    (∀ e, exec i s = .refused e → exec i { s with issuer := a } = .refused e)) ∧
  (∀ (i : Instr) (s t : State), exec i s = .next t → t.streams.map (·.owner) = s.streams.map (·.owner))

/-- The refusals of the RX_* operations and their reasons (R210): a stream that does not exist (R91), an agent that is not the
owner (R49), a push of no byte (R91), a push past RX_CAPACITY (R44) and a discard past the end (R182). Which reason is given where
several hold is the model's choice (log 10). -/
def Obligations.StreamOperationsRefuseBrokenDuties : Prop :=
  (∀ (i : Instr) (n : Nat) (s : State), streamTarget i = some n → s.streams.length ≤ n →
    exec i s = .refused .operandOutOfRange) ∧
  (∀ (i : Instr) (n : Nat) (s : State) (st : Stream), streamTarget i = some n → s.streams[n]? = some st →
    st.owner ≠ s.issuer → exec i s = .refused .notOwner) ∧
  (∀ (s : State) (n : Nat) (st : Stream), s.streams[n]? = some st → st.owner = s.issuer →
    exec (.rxPush n []) s = .refused .operandOutOfRange ∧
    (∀ (bs : Bytes) (c : Nat), bs ≠ [] → s.rxCapacity = some c → c < st.buf.length + bs.length →
      exec (.rxPush n bs) s = .refused .bufferOverflow) ∧
    (∀ k : Nat, st.buf.length < k → exec (.rxDiscard n k) s = .refused .discardPastEnd))

/-- The frame of the RX_* operations: nothing but `buf[s]` changes (R27, R180 to R184). Every table, every other stream, the
configuration and the host's queue are as before; one result is added. -/
def Obligations.StreamOperationsChangeOneBufferOnly : Prop :=
  ∀ (i : Instr) (n : Nat) (s t : State), streamTarget i = some n → exec i s = .next t →
    t.builders = s.builders ∧ t.config = s.config ∧ t.pending = s.pending ∧ t.issuer = s.issuer ∧
    (∃ r, t.results = s.results ++ [r]) ∧ t.streams.length = s.streams.length ∧
    (∀ m : Nat, m ≠ n → t.streams[m]? = s.streams[m]?) ∧ (i = .rxStatus n → t.streams = s.streams)

/-- R186: under RX_PUSH the phase only moves forward, COMPLETE and ERROR are absorbing, an empty buffer is in AWAIT_HEAD, and
a TCP stream is never in AWAIT_COUNT or AWAIT_CRC. -/
def Obligations.PhaseMovesForwardUnderPush : Prop :=
  ∀ (q : Bool) (proto : Proto) (dir : Dir) (bs y : Bytes),
    (phase q proto dir bs = .complete → phase q proto dir (bs ++ y) = .complete) ∧
    (phase q proto dir bs = .error → phase q proto dir (bs ++ y) = .error) ∧
    (phase q proto dir bs).code ≤ (phase q proto dir (bs ++ y)).code ∧
    phase q proto dir [] = .awaitHead ∧
    phase q .tcp dir bs ≠ .awaitCount ∧ phase q .tcp dir bs ≠ .awaitCrc

/-- R187: an outcome that is not Incomplete does not change when bytes are appended, for both framings and both directions. -/
def Obligations.DecodeIsPrefixStable : Prop :=
  ∀ (q : Bool) (proto : Proto) (dir : Dir) (bs y : Bytes),
    streamDecode q proto dir bs ≠ .incomplete →
    streamDecode q proto dir (bs ++ y) = streamDecode q proto dir bs

/-- R227: an error stays at the front of the stream until the host removes bytes. Whatever any agents execute meanwhile on the
block, each instruction under its own agent, so long as it is no RX_DISCARD and no RX_FLUSH of this stream and no RESET, the next
RX_DECODE by the owner answers that same error and changes nothing; and k RX_DECODEs in a row complete, answer it k times and
change nothing. -/
def Obligations.ErrorPersistsUntilBytesAreRemoved : Prop :=
  ∀ (s : State) (n : Nat) (st : Stream) (e : CodecError), s.streams[n]? = some st →
    streamDecode s.refExcQuirk st.proto st.dir st.buf = .error e →
    (∀ (is : List (Agent × Instr)) (t : State),
      (∀ i ∈ is, i.2 ≠ .reset ∧ i.2 ≠ .rxFlush n ∧ ∀ k, i.2 ≠ .rxDiscard n k) → execIssued is s = .next t →
      exec (.rxDecode n) { t with issuer := st.owner } =
        .next (returning { t with issuer := st.owner } (.outcome (.error e)))) ∧
    (st.owner = s.issuer → ∀ k : Nat, execAll (List.replicate k (.rxDecode n)) s =
      .next { s with results := s.results ++ List.replicate k (.outcome (.error e)) })

/-- R188: if a stream holds the encodings of k WF values of its framing and direction, one after another, and then any bytes,
k RX_DECODEs return the k values in order, each with its own length, and leave the bytes after them. (RTU gives the values
without transaction and protocol id, R168; the quirk loses IllegalFunction, R64.) -/
def Obligations.BackToBackFramesDecodeInOrder : Prop :=
  ∀ (s : State) (n : Nat) (st : Stream) (frs : List Frame) (tail : Bytes),
    s.streams[n]? = some st → st.owner = s.issuer →
    (∀ fr ∈ frs, fr.wf = true ∧ fr.kind = kindOf st.dir ∧ quirkFree s.refExcQuirk fr) →
    st.buf = (frs.map (wireBytes st.proto)).flatten ++ tail →
    execAll (List.replicate frs.length (.rxDecode n)) s = .next { s with
      streams := s.streams.set n { st with buf := tail },
      results := s.results ++ frs.map (fun fr =>
        .outcome (.frame (received st.proto fr) (wireBytes st.proto fr).length)) }

/-- R226: a TCP length field of 0xFFFF holds a stream Incomplete until 65541 bytes are present, and then gives LengthMismatch
(the outcome is the spec's own choice, D5; that it carries the length field is R202's, log 11); an RTU buffer of 264 bytes or
more is never Incomplete. -/
def Obligations.LengthStallIsBounded : Prop :=
  ∀ (q : Bool) (dir : Dir) (bs : Bytes),
    (byteAt bs 7 ∈ legalBytes dir → rdBe16 bs 4 = 0xFFFF →
      (bs.length < 65541 → tcpDecode q dir bs = .incomplete) ∧
      (65541 ≤ bs.length → tcpDecode q dir bs = .error (.lengthMismatch 0xFFFF))) ∧
    (264 ≤ bs.length → rtuDecode q dir bs ≠ .incomplete)

/-! ## The wire rows -/

/-- The 24 function-byte rows complete in every state, change nothing, and return what the row says of its byte (R62, R63,
R31, R75, R76): function, exception flag, body shape and RTU body length, none while the peeked count byte is missing. That
a function byte of a frame is an instruction of its own is the model's choice (log 8). -/
def Obligations.FunctionByteRowsLookUpTheirByte : Prop :=
  ∀ (s : State) (body : Bytes),
    exec (.wireReqReadCoils body) s = .next (returning s (.lookup .readCoils false .readReq (some 4))) ∧
    exec (.wireReqReadDiscreteInputs body) s = .next (returning s (.lookup .readDiscreteInputs false .readReq (some 4))) ∧
    exec (.wireReqReadMultipleHoldingRegisters body) s = .next (returning s (.lookup .readMultipleHoldingRegisters false .readReq (some 4))) ∧
    exec (.wireReqReadInputRegisters body) s = .next (returning s (.lookup .readInputRegisters false .readReq (some 4))) ∧
    exec (.wireReqWriteSingleCoil body) s = .next (returning s (.lookup .writeSingleCoil false .writeSingle (some 4))) ∧
    exec (.wireReqWriteSingleHoldingRegister body) s = .next (returning s (.lookup .writeSingleHoldingRegister false .writeSingle (some 4))) ∧
    exec (.wireReqWriteMultipleCoils body) s = .next (returning s (.lookup .writeMultipleCoils false .writeMultiReq (body[4]?.map (fun c => c.toNat + 5)))) ∧
    exec (.wireReqWriteMultipleHoldingRegisters body) s = .next (returning s (.lookup .writeMultipleHoldingRegisters false .writeMultiReq (body[4]?.map (fun c => c.toNat + 5)))) ∧
    exec (.wireRspReadCoils body) s = .next (returning s (.lookup .readCoils false .readRsp (body[0]?.map (fun c => c.toNat + 1)))) ∧
    exec (.wireRspReadDiscreteInputs body) s = .next (returning s (.lookup .readDiscreteInputs false .readRsp (body[0]?.map (fun c => c.toNat + 1)))) ∧
    exec (.wireRspReadMultipleHoldingRegisters body) s = .next (returning s (.lookup .readMultipleHoldingRegisters false .readRsp (body[0]?.map (fun c => c.toNat + 1)))) ∧
    exec (.wireRspReadInputRegisters body) s = .next (returning s (.lookup .readInputRegisters false .readRsp (body[0]?.map (fun c => c.toNat + 1)))) ∧
    exec (.wireRspWriteSingleCoil body) s = .next (returning s (.lookup .writeSingleCoil false .writeSingle (some 4))) ∧
    exec (.wireRspWriteSingleHoldingRegister body) s = .next (returning s (.lookup .writeSingleHoldingRegister false .writeSingle (some 4))) ∧
    exec (.wireRspWriteMultipleCoils body) s = .next (returning s (.lookup .writeMultipleCoils false .writeMultiRsp (some 4))) ∧
    exec (.wireRspWriteMultipleHoldingRegisters body) s = .next (returning s (.lookup .writeMultipleHoldingRegisters false .writeMultiRsp (some 4))) ∧
    exec (.wireRspExceptionReadCoils body) s = .next (returning s (.lookup .readCoils true .exceptionRsp (some 1))) ∧
    exec (.wireRspExceptionReadDiscreteInputs body) s = .next (returning s (.lookup .readDiscreteInputs true .exceptionRsp (some 1))) ∧
    exec (.wireRspExceptionReadMultipleHoldingRegisters body) s = .next (returning s (.lookup .readMultipleHoldingRegisters true .exceptionRsp (some 1))) ∧
    exec (.wireRspExceptionReadInputRegisters body) s = .next (returning s (.lookup .readInputRegisters true .exceptionRsp (some 1))) ∧
    exec (.wireRspExceptionWriteSingleCoil body) s = .next (returning s (.lookup .writeSingleCoil true .exceptionRsp (some 1))) ∧
    exec (.wireRspExceptionWriteSingleHoldingRegister body) s = .next (returning s (.lookup .writeSingleHoldingRegister true .exceptionRsp (some 1))) ∧
    exec (.wireRspExceptionWriteMultipleCoils body) s = .next (returning s (.lookup .writeMultipleCoils true .exceptionRsp (some 1))) ∧
    exec (.wireRspExceptionWriteMultipleHoldingRegisters body) s = .next (returning s (.lookup .writeMultipleHoldingRegisters true .exceptionRsp (some 1)))

/-- The 5 exception-code rows complete in every state, change nothing, and return the exception R64 decodes their code to;
with REF_EXC_QUIRK, code 0x01 is IllegalDataValue. That an exception code of a frame is an instruction of its own is the
model's choice (log 8). -/
def Obligations.ExceptionCodeRowsDecodeTheirCode : Prop :=
  ∀ s : State,
    exec .wireExceptionCodeIllegalFunction s =
      .next (returning s (.exception (if s.refExcQuirk then .illegalDataValue else .illegalFunction))) ∧
    exec .wireExceptionCodeIllegalDataAddress s = .next (returning s (.exception .illegalDataAddress)) ∧
    exec .wireExceptionCodeIllegalDataValue s = .next (returning s (.exception .illegalDataValue)) ∧
    exec .wireExceptionCodeSlaveDeviceFailure s = .next (returning s (.exception .slaveDeviceFailure)) ∧
    exec .wireExceptionCodeAcknowledge s = .next (returning s (.exception .acknowledge))
end

