-- ==== Sys2Proof/Laws/Codec.lean ====
section
/-! SUPPORT. The small lemmas of the codec's functions: byte order, codes, body lengths, and that a body parses back from its
encoding. -/

namespace Sys2Proof

/-! ## Byte order -/

@[simp] theorem be16_length (v : U16) : (be16 v).length = 2 := rfl
@[simp] theorem le16_length (v : U16) : (le16 v).length = 2 := rfl

/-- A u16 is its high byte and its low byte. -/
@[simp] theorem hi_append_lo (v : U16) : v.extractLsb' 8 8 ++ v.extractLsb' 0 8 = v := by
  apply BitVec.eq_of_getLsbD_eq
  intro i hi
  simp only [BitVec.getLsbD_append, BitVec.getLsbD_extractLsb']
  by_cases h : i < 8
  · simp [h]
  · have h8 : i - 8 < 8 := by omega
    have he : 8 + (i - 8) = i := by omega
    simp [h, h8, he]

@[simp] theorem byteAt_cons_zero (x : Byte) (l : Bytes) : byteAt (x :: l) 0 = x := rfl
@[simp] theorem byteAt_cons_succ (x : Byte) (l : Bytes) (i : Nat) : byteAt (x :: l) (i + 1) = byteAt l i := rfl

/-- A byte that is there does not change when bytes are appended. -/
theorem byteAt_append_left (l y : Bytes) (i : Nat) (h : i < l.length) : byteAt (l ++ y) i = byteAt l i := by
  simp [byteAt, List.getD_eq_getElem?_getD, List.getElem?_append_left h]

theorem byteAt_append_right (l y : Bytes) (i : Nat) (h : l.length ≤ i) : byteAt (l ++ y) i = byteAt y (i - l.length) := by
  simp [byteAt, List.getD_eq_getElem?_getD, List.getElem?_append_right h]

theorem rdBe16_append_left (l y : Bytes) (i : Nat) (h : i + 1 < l.length) : rdBe16 (l ++ y) i = rdBe16 l i := by
  simp [rdBe16, byteAt_append_left l y i (by omega), byteAt_append_left l y (i + 1) h]

theorem rdLe16_append_left (l y : Bytes) (i : Nat) (h : i + 1 < l.length) : rdLe16 (l ++ y) i = rdLe16 l i := by
  simp [rdLe16, byteAt_append_left l y i (by omega), byteAt_append_left l y (i + 1) h]

/-- Reading a u16 where `le16` put it gives it back (R43). -/
theorem rdLe16_append_le16 (p : Bytes) (v : U16) : rdLe16 (p ++ le16 v) p.length = v := by
  simp [rdLe16, byteAt_append_right, le16, hi_append_lo]

theorem slice_append_left (l y : Bytes) (i j : Nat) (h : j ≤ l.length) : slice (l ++ y) i j = slice l i j := by
  by_cases hij : i ≤ j
  · simp only [slice]
    rw [List.drop_append_of_le_length (by omega), List.take_append_of_le_length (by simp; omega)]
  · simp [slice, show j - i = 0 by omega]

@[simp] theorem slice_length (bs : Bytes) (i j : Nat) : (slice bs i j).length = min (j - i) (bs.length - i) := by
  simp [slice]

theorem slice_zero (bs : Bytes) (j : Nat) : slice bs 0 j = bs.take j := by simp [slice]

theorem slice_to_end (bs : Bytes) (i : Nat) : slice bs i bs.length = bs.drop i := by
  simp [slice, List.take_of_length_le]

/-! ## Codes -/

@[simp] theorem fnDecode_code (f : Fn) : fnDecode f.code = some f := by cases f <;> rfl

/-- A function is decoded only from its own code (R62). -/
theorem fnDecode_eq_some {c : Byte} {f : Fn} (h : fnDecode c = some f) : c = f.code := by
  revert h
  simp only [fnDecode]
  split_ifs <;> intro h <;> simp_all <;> subst h <;> rfl

/-- Without the quirk decode is the inverse of encode (R64). -/
@[simp] theorem excDecode_code (e : Exc) : excDecode false e.code = some e := by cases e <;> rfl

/-- With the quirk only IllegalFunction is not recovered (R64). -/
theorem excDecode_code_quirk (q : Bool) (e : Exc) (h : q = false ∨ e ≠ .illegalFunction) :
    excDecode q e.code = some e := by
  cases q <;> cases e <;> simp_all <;> rfl

/-- The encoders' function byte classifies back, in a direction that allows the exception flag (R63). -/
theorem classify_fbyte (dir : Dir) (h : Head) (hd : dir = .req → h.isException = false) :
    classify dir (fbyte h) = .ok (h.function, h.isException) := by
  obtain ⟨t, p, l, u, f, e⟩ := h
  cases dir <;> cases e <;> cases f <;> simp_all [classify, fbyte, Fn.code, baseCode, excFlag, fnDecode]

/-- A byte that classifies is the function byte of its function and flag, and a request carries no flag (R63). -/
theorem classify_ok (dir : Dir) (fb : Byte) (f : Fn) (exc : Bool) (h : classify dir fb = .ok (f, exc)) :
    fb = f.code ||| (if exc then 0x80 else 0x00) ∧ (dir = .req → exc = false) := by
  have key : ∀ fb : Byte, ∀ f, fnDecode (baseCode fb) = some f →
      fb = f.code ||| (if excFlag fb then 0x80 else 0x00) := by
    intro fb f hf
    have hb := fnDecode_eq_some hf
    have hsplit : ∀ fb : Byte, fb = baseCode fb ||| (if excFlag fb then 0x80 else 0x00) := by decide
    rw [← hb]; exact hsplit fb
  simp only [classify] at h
  split at h
  · cases h
  · next f' hf =>
    split at h
    · cases h
    · next hne =>
      cases h
      exact ⟨key fb f hf, fun hd => by simpa [hd] using hne⟩

/-- What a byte that does not classify gives is InvalidFunctionCode with the byte itself (R63). -/
theorem classify_error (dir : Dir) (fb : Byte) (e : CodecError) (h : classify dir fb = .error e) :
    e = .invalidFunctionCode fb := by
  simp only [classify] at h
  split at h
  · cases h; rfl
  · split at h <;> cases h; rfl

/-! ## Bodies -/

/-- `|enc_body(body)| = blen(body)` (R73). -/
@[simp] theorem encBody_length (b : Body) : (encBody b).length = b.blen := by
  cases b <;> simp [encBody, Body.blen] <;> omega

theorem byteCount_toNat (vs : Bytes) (h : vs.length ≤ 255) : (byteCount vs).toNat = vs.length := by
  simp [byteCount]; omega

/-- What WF says (R32), clause by clause. -/
theorem Frame.wf_iff (fr : Frame) : fr.wf = true ↔
    fr.body.shape = shapeFor fr.kind fr.head.function fr.head.isException ∧
    (fr.kind = .request → fr.head.isException = false) ∧
    fr.body.values.length ≤ 255 ∧ fr.head.length.toNat = 2 + fr.body.blen := by
  simp only [Frame.wf, Bool.and_eq_true, decide_eq_true_eq, and_assoc]

/-- A body parses back from its encoding, in the direction and under the function whose shape it has (R73, R74). -/
theorem parseBody_encBody (q : Bool) (k : Kind) (f : Fn) (exc : Bool) (b : Body)
    (hs : b.shape = shapeFor k f exc) (hk : k = .request → exc = false) (hv : b.values.length ≤ 255)
    (hq : q = false ∨ b ≠ .exceptionRsp .illegalFunction) :
    parseBody q (dirOf k) f exc (encBody b) = .ok b := by
  cases b with
  | readReq a c =>
    cases k <;> cases exc <;> cases f <;> simp_all [shapeFor, Fn.group, Body.shape, parseBody, dirOf] <;>
      simp [encBody, Body.blen, be16, rdBe16]
  | writeSingle a v =>
    cases k <;> cases exc <;> cases f <;> simp_all [shapeFor, Fn.group, Body.shape, parseBody, dirOf] <;>
      simp [encBody, Body.blen, be16, rdBe16]
  | writeMultiRsp a v =>
    cases k <;> cases exc <;> cases f <;> simp_all [shapeFor, Fn.group, Body.shape, parseBody, dirOf] <;>
      simp [encBody, Body.blen, be16, rdBe16]
  | writeMultiReq a c vs =>
    have hb := byteCount_toNat vs hv
    cases k <;> cases exc <;> cases f <;> simp_all [shapeFor, Fn.group, Body.shape, parseBody, dirOf] <;>
      simp [encBody, Body.blen, be16, rdBe16, slice, hb]
  | readRsp vs =>
    have hb := byteCount_toNat vs hv
    cases k <;> cases exc <;> cases f <;> simp_all [shapeFor, Fn.group, Body.shape, parseBody, dirOf] <;>
      simp [encBody, Body.blen, slice, hb]
  | exceptionRsp e =>
    have hx : excDecode q e.code = some e := excDecode_code_quirk q e (by simpa using hq)
    cases k <;> cases exc <;> cases f <;> simp_all [shapeFor, Fn.group, Body.shape, parseBody] <;>
      simp [encBody, Body.blen, hx]

end Sys2Proof
end

