-- ==== Sys2Proof/Laws/Decode.lean ====
section
/-! SUPPORT. The small lemmas of the operand decoders: each reads back what the encoder writes, and accepts nothing else. -/

namespace Sys2Proof

/-- Every u8 is an operand (R91). -/
theorem asU8_toNat (u : Byte) : asU8 u.toNat = some u := by
  have := u.isLt; unfold asU8; rw [if_pos (by omega)]; simp

/-- Every u16 is an operand (R91). -/
theorem asU16_toNat (u : U16) : asU16 u.toNat = some u := by
  have := u.isLt; unfold asU16; rw [if_pos (by omega)]; simp

/-- Every function is an operand. -/
theorem asFn_index (f : Fn) : asFn f.index = some f := by cases f <;> rfl

/-- Every exception is an operand. -/
theorem asExc_index (f : Exc) : asExc f.index = some f := by cases f <;> rfl

/-- A number that is a u8 operand is that byte. -/
theorem asU8_some {n u} (h : asU8 n = some u) : n = u.toNat := by
  unfold asU8 at h; split at h <;> cases h; simp; omega

/-- A number that is a u16 operand is that word. -/
theorem asU16_some {n u} (h : asU16 n = some u) : n = u.toNat := by
  unfold asU16 at h; split at h <;> cases h; simp; omega

/-- A number that is a function operand is the function's place in R29. -/
theorem asFn_some {n u} (h : asFn n = some u) : n = Fn.index u := by
  unfold asFn at h; split at h <;> cases h <;> rfl

/-- A number that is an exception operand is the exception's place in R29. -/
theorem asExc_some {n u} (h : asExc n = some u) : n = Exc.index u := by
  unfold asExc at h; split at h <;> cases h <;> rfl

/-- The only operand lists that `twoWordForm` accepts. -/
theorem twoWordForm_some {k ops x} (h : twoWordForm k ops = some x) : ∃ b u y z, ops = twoWordOperands b u y z ∧ x = k b u y z := by
  unfold twoWordForm at h; split at h
  · simp only [Option.bind_eq_bind, Option.bind_eq_some_iff, Option.pure_def, Option.some.injEq] at h
    obtain ⟨u, hu, y, hy, z, hz, rfl⟩ := h
    exact ⟨_, u, y, z, by simp [twoWordOperands, asU8_some hu, asU16_some hy, asU16_some hz], rfl⟩
  · cases h

/-- The only operand lists that `twoWordValuesForm` accepts. -/
theorem twoWordValuesForm_some {k ops x} (h : twoWordValuesForm k ops = some x) : ∃ b u y z vs, ops = twoWordOperands b u y z ++ [.bytes vs] ∧ x = k b u y z vs := by
  unfold twoWordValuesForm at h; split at h
  · simp only [Option.bind_eq_bind, Option.bind_eq_some_iff, Option.pure_def, Option.some.injEq] at h
    obtain ⟨u, hu, y, hy, z, hz, rfl⟩ := h
    exact ⟨_, u, y, z, _, by simp [twoWordOperands, asU8_some hu, asU16_some hy, asU16_some hz], rfl⟩
  · cases h

/-- The only operand lists that `valuesForm` accepts. -/
theorem valuesForm_some {k ops x} (h : valuesForm k ops = some x) : ∃ b u vs, ops = [.num b, .num (BitVec.toNat u), .bytes vs] ∧ x = k b u vs := by
  unfold valuesForm at h; split at h
  · simp only [Option.bind_eq_bind, Option.bind_eq_some_iff, Option.pure_def, Option.some.injEq] at h
    obtain ⟨u, hu, rfl⟩ := h
    exact ⟨_, u, _, by simp [asU8_some hu], rfl⟩
  · cases h

/-- The only operand lists that `exceptionForm` accepts. -/
theorem exceptionForm_some {k ops x} (h : exceptionForm k ops = some x) : ∃ b u f e, ops = [.num b, .num (BitVec.toNat u), .num f.index, .num e.index] ∧ x = k b u f e := by
  unfold exceptionForm at h; split at h
  · simp only [Option.bind_eq_bind, Option.bind_eq_some_iff, Option.pure_def, Option.some.injEq] at h
    obtain ⟨u, hu, f, hf, e, he, rfl⟩ := h
    exact ⟨_, u, f, e, by simp [asU8_some hu, asFn_some hf, asExc_some he], rfl⟩
  · cases h

/-- The only operand lists that `bytesForm` accepts. -/
theorem bytesForm_some {k ops x} (h : bytesForm k ops = some x) : ∃ b, ops = [.bytes b] ∧ x = k b := by
  unfold bytesForm at h; split at h <;> cases h; exact ⟨_, rfl, rfl⟩

/-- The only operand lists that `bytesWordForm` accepts. -/
theorem bytesWordForm_some {k ops x} (h : bytesWordForm k ops = some x) : ∃ b c, ops = [.bytes b, .num (BitVec.toNat c)] ∧ x = k b c := by
  unfold bytesWordForm at h; split at h
  · simp only [Option.bind_eq_bind, Option.bind_eq_some_iff, Option.pure_def, Option.some.injEq] at h
    obtain ⟨u, hu, rfl⟩ := h
    exact ⟨_, u, by simp [asU16_some hu], rfl⟩
  · cases h

/-- The only operand lists that `frameForm` accepts. -/
theorem frameForm_some {k ops x} (h : frameForm k ops = some x) : ∃ b, ops = [.frame b] ∧ x = k b := by
  unfold frameForm at h; split at h <;> cases h; exact ⟨_, rfl, rfl⟩

/-- The only operand lists that `streamForm` accepts. -/
theorem streamForm_some {k ops x} (h : streamForm k ops = some x) : ∃ b, ops = [.num b] ∧ x = k b := by
  unfold streamForm at h; split at h <;> cases h; exact ⟨_, rfl, rfl⟩

/-- The only operand lists that `streamBytesForm` accepts. -/
theorem streamBytesForm_some {k ops x} (h : streamBytesForm k ops = some x) : ∃ b c, ops = [.num b, .bytes c] ∧ x = k b c := by
  unfold streamBytesForm at h; split at h <;> cases h; exact ⟨_, _, rfl, rfl⟩

/-- The only operand lists that `streamNumForm` accepts. -/
theorem streamNumForm_some {k ops x} (h : streamNumForm k ops = some x) : ∃ b c, ops = [.num b, .num c] ∧ x = k b c := by
  unfold streamNumForm at h; split at h <;> cases h; exact ⟨_, _, rfl, rfl⟩

/-- The only operand lists that `noneForm` accepts. -/
theorem noneForm_some {k ops x} (h : noneForm k ops = some x) : ops = [] ∧ x = k := by
  unfold noneForm at h; split at h <;> cases h; exact ⟨rfl, rfl⟩

end Sys2Proof
end

