-- ==== Sys2Proof/Laws/State.lean ====
section
/-! SUPPORT. One lemma per field per update of State, so that no proof unfolds a record update; and the configuration of a
state after each update. -/

namespace Sys2Proof.Machine

@[simp] theorem State.post_builders (s : State) (r : Result) : (s.post r).builders = s.builders := rfl
@[simp] theorem State.post_streams (s : State) (r : Result) : (s.post r).streams = s.streams := rfl
@[simp] theorem State.post_rxCapacity (s : State) (r : Result) : (s.post r).rxCapacity = s.rxCapacity := rfl
@[simp] theorem State.post_refExcQuirk (s : State) (r : Result) : (s.post r).refExcQuirk = s.refExcQuirk := rfl
@[simp] theorem State.post_pending (s : State) (r : Result) : (s.post r).pending = s.pending := rfl
@[simp] theorem State.post_issuer (s : State) (r : Result) : (s.post r).issuer = s.issuer := rfl
@[simp] theorem State.post_results (s : State) (r : Result) : (s.post r).results = s.results ++ [r] := rfl

@[simp] theorem State.postOutcome_builders (s : State) (o : DecodeOutcome) : (s.postOutcome o).builders = s.builders := rfl
@[simp] theorem State.postOutcome_streams (s : State) (o : DecodeOutcome) : (s.postOutcome o).streams = s.streams := rfl
@[simp] theorem State.postOutcome_rxCapacity (s : State) (o : DecodeOutcome) : (s.postOutcome o).rxCapacity = s.rxCapacity := rfl
@[simp] theorem State.postOutcome_refExcQuirk (s : State) (o : DecodeOutcome) : (s.postOutcome o).refExcQuirk = s.refExcQuirk := rfl
@[simp] theorem State.postOutcome_pending (s : State) (o : DecodeOutcome) : (s.postOutcome o).pending = s.pending := rfl
@[simp] theorem State.postOutcome_issuer (s : State) (o : DecodeOutcome) : (s.postOutcome o).issuer = s.issuer := rfl
@[simp] theorem State.postOutcome_results (s : State) (o : DecodeOutcome) : (s.postOutcome o).results = s.results ++ [.outcome o] := rfl

@[simp] theorem State.setBuilder_builders (s : State) (b : Nat) (bl : Builder) : (s.setBuilder b bl).builders = s.builders.set b bl := rfl
@[simp] theorem State.setBuilder_streams (s : State) (b : Nat) (bl : Builder) : (s.setBuilder b bl).streams = s.streams := rfl
@[simp] theorem State.setBuilder_rxCapacity (s : State) (b : Nat) (bl : Builder) : (s.setBuilder b bl).rxCapacity = s.rxCapacity := rfl
@[simp] theorem State.setBuilder_refExcQuirk (s : State) (b : Nat) (bl : Builder) : (s.setBuilder b bl).refExcQuirk = s.refExcQuirk := rfl
@[simp] theorem State.setBuilder_pending (s : State) (b : Nat) (bl : Builder) : (s.setBuilder b bl).pending = s.pending := rfl
@[simp] theorem State.setBuilder_issuer (s : State) (b : Nat) (bl : Builder) : (s.setBuilder b bl).issuer = s.issuer := rfl
@[simp] theorem State.setBuilder_results (s : State) (b : Nat) (bl : Builder) : (s.setBuilder b bl).results = s.results := rfl

@[simp] theorem State.setStream_builders (s : State) (n : Nat) (st : Stream) : (s.setStream n st).builders = s.builders := rfl
@[simp] theorem State.setStream_streams (s : State) (n : Nat) (st : Stream) : (s.setStream n st).streams = s.streams.set n st := rfl
@[simp] theorem State.setStream_rxCapacity (s : State) (n : Nat) (st : Stream) : (s.setStream n st).rxCapacity = s.rxCapacity := rfl
@[simp] theorem State.setStream_refExcQuirk (s : State) (n : Nat) (st : Stream) : (s.setStream n st).refExcQuirk = s.refExcQuirk := rfl
@[simp] theorem State.setStream_pending (s : State) (n : Nat) (st : Stream) : (s.setStream n st).pending = s.pending := rfl
@[simp] theorem State.setStream_issuer (s : State) (n : Nat) (st : Stream) : (s.setStream n st).issuer = s.issuer := rfl
@[simp] theorem State.setStream_results (s : State) (n : Nat) (st : Stream) : (s.setStream n st).results = s.results := rfl

@[simp] theorem State.setBuf_builders (s : State) (n : Nat) (st : Stream) (bs : Bytes) : (s.setBuf n st bs).builders = s.builders := rfl
@[simp] theorem State.setBuf_streams (s : State) (n : Nat) (st : Stream) (bs : Bytes) : (s.setBuf n st bs).streams = s.streams.set n (Stream.mk st.proto st.dir st.owner bs) := rfl
@[simp] theorem State.setBuf_rxCapacity (s : State) (n : Nat) (st : Stream) (bs : Bytes) : (s.setBuf n st bs).rxCapacity = s.rxCapacity := rfl
@[simp] theorem State.setBuf_refExcQuirk (s : State) (n : Nat) (st : Stream) (bs : Bytes) : (s.setBuf n st bs).refExcQuirk = s.refExcQuirk := rfl
@[simp] theorem State.setBuf_pending (s : State) (n : Nat) (st : Stream) (bs : Bytes) : (s.setBuf n st bs).pending = s.pending := rfl
@[simp] theorem State.setBuf_issuer (s : State) (n : Nat) (st : Stream) (bs : Bytes) : (s.setBuf n st bs).issuer = s.issuer := rfl
@[simp] theorem State.setBuf_results (s : State) (n : Nat) (st : Stream) (bs : Bytes) : (s.setBuf n st bs).results = s.results := rfl

@[simp] theorem State.dropIssue_builders (s : State) : (s.dropIssue).builders = s.builders := rfl
@[simp] theorem State.dropIssue_streams (s : State) : (s.dropIssue).streams = s.streams := rfl
@[simp] theorem State.dropIssue_rxCapacity (s : State) : (s.dropIssue).rxCapacity = s.rxCapacity := rfl
@[simp] theorem State.dropIssue_refExcQuirk (s : State) : (s.dropIssue).refExcQuirk = s.refExcQuirk := rfl
@[simp] theorem State.dropIssue_pending (s : State) : (s.dropIssue).pending = s.pending.tail := rfl
@[simp] theorem State.dropIssue_issuer (s : State) : (s.dropIssue).issuer = s.issuer := rfl
@[simp] theorem State.dropIssue_results (s : State) : (s.dropIssue).results = s.results := rfl

@[simp] theorem Stream.cleared_buf (st : Stream) : st.cleared.buf = [] := rfl
@[simp] theorem Stream.cleared_config (st : Stream) : st.cleared.config = st.config := rfl
@[simp] theorem Builder.cleared_mode (bl : Builder) : bl.cleared.mode = bl.mode := rfl
@[simp] theorem Builder.cleared_tids (bl : Builder) : bl.cleared.tids = TidTable.fresh := rfl
@[simp] theorem Builder.fresh_mode (m : Mode) : (Builder.fresh m).mode = m := rfl
@[simp] theorem Builder.fresh_tids (m : Mode) : (Builder.fresh m).tids = TidTable.fresh := rfl
@[simp] theorem Stream.fresh_buf (c : StreamConfig) : (Stream.fresh c).buf = [] := rfl
@[simp] theorem Stream.fresh_config (c : StreamConfig) : (Stream.fresh c).config = c := rfl

/-- A list whose element is replaced by one with the same image keeps its image. -/
theorem map_set_of_image_eq {α β : Type} (f : α → β) (l : List α) (n : Nat) (x y : α)
    (h : l[n]? = some x) (hf : f y = f x) : (l.set n y).map f = l.map f := by
  apply List.ext_getElem? ; intro i
  simp only [List.getElem?_map, List.getElem?_set]
  split
  · next hi => subst hi; split <;> simp_all
  · rfl

@[simp] theorem State.post_config (s : State) (r : Result) : (s.post r).config = s.config := rfl
@[simp] theorem State.postOutcome_config (s : State) (o : DecodeOutcome) : (s.postOutcome o).config = s.config := rfl
@[simp] theorem State.dropIssue_config (s : State) : s.dropIssue.config = s.config := rfl

theorem State.setBuilder_config (s : State) (b : Nat) (bl bl' : Builder) (h : s.builders[b]? = some bl)
    (hm : bl'.mode = bl.mode) : (s.setBuilder b bl').config = s.config := by
  simp [State.config, map_set_of_image_eq (·.mode) s.builders b bl bl' h hm]

theorem State.setBuf_config (s : State) (n : Nat) (st : Stream) (bs : Bytes) (h : s.streams[n]? = some st) :
    (s.setBuf n st bs).config = s.config := by
  have hc : (s.streams.set n { proto := st.proto, dir := st.dir, owner := st.owner, buf := bs }).map (·.config)
      = s.streams.map (·.config) :=
    map_set_of_image_eq (·.config) s.streams n st { st with buf := bs } h rfl
  simp [State.config, hc]

/-- The power-on state has the configuration it was made for (R34). -/
@[simp] theorem State.ofConfig_config (c : Config) : (State.ofConfig c).config = c := by
  cases c; simp [State.ofConfig, State.config, Function.comp_def, Stream.config, Stream.fresh]

end Sys2Proof.Machine
end

