-- ==== Sys2Proof/Laws/Ops.lean ====
section
/-! SUPPORT. For each shared operation, once, everything it can do; and that every operation on a buffer keeps it within the
capacity. -/

namespace Sys2Proof

/-- A body that parses has the bytes it was parsed from, the shape of its function, and at most 255 values (R74). -/
theorem parseBody_ok {q : Bool} {dir : Dir} {f : Fn} {exc : Bool} {bd : Bytes} {b : Body}
    (hd : dir = .req → exc = false) (h : parseBody q dir f exc bd = .ok b) :
    b.blen = bd.length ∧ b.shape = shapeFor (kindOf dir) f exc ∧ b.values.length ≤ 255 := by
  have hlt : ∀ x : Byte, x.toNat ≤ 255 := fun x => by have := x.isLt; omega
  cases exc
  · cases dir <;> cases f <;> simp only [parseBody, Fn.group, Bool.false_eq_true, if_false] at h <;>
      split at h <;> cases h <;>
      simp_all [Body.blen, Body.shape, Body.values, shapeFor, Fn.group, kindOf, slice]
  · cases dir
    · simp at hd
    · simp only [parseBody, if_true] at h
      split at h
      · cases h
      · split at h <;> cases h
        simp_all [Body.blen, Body.shape, Body.values, shapeFor, kindOf]

/-- The RTU body length is between 1 and 260 (R77). -/
theorem rtuBlen_range {dir : Dir} {f : Fn} {exc : Bool} {bs : Bytes} {bl : Nat} (h : rtuBlen dir f exc bs = some bl) :
    1 ≤ bl ∧ bl ≤ 260 := by
  have h2 := (byteAt bs 2).isLt
  have h6 := (byteAt bs 6).isLt
  simp only [rtuBlen] at h
  split at h
  case h_2 => split at h <;> cases h; omega
  case h_7 => split at h <;> cases h; omega
  all_goals cases h; omega

/-- The CRC of a longer sequence goes on from the CRC of its beginning (R101). -/
theorem crc16_append (p q : Bytes) : crc16 (p ++ q) = q.foldl crcStep (crc16 p) := by simp [crc16]

end Sys2Proof

namespace Sys2Proof.Machine

/-! ## The transaction-id table -/

@[simp] theorem TidTable.last_record_self (t : TidTable) (u : Byte) (id : U16) : (t.record u id).last u = id := by
  simp [TidTable.last, TidTable.record]

@[simp] theorem TidTable.last_record_of_ne (t : TidTable) (u v : Byte) (id : U16) (h : v ≠ u) :
    (t.record u id).last v = t.last v := by
  have hn : u.toNat ≠ v.toNat := fun e => h (BitVec.eq_of_toNat_eq e).symm
  simp [TidTable.last, TidTable.record, Vector.getElem_set_ne, hn]

@[simp] theorem TidTable.last_fresh (u : Byte) : TidTable.fresh.last u = 0 := by
  simp [TidTable.last, TidTable.fresh]

/-- An issued id is never 0 (R111). -/
theorem nextTid_ne_zero (prev : U16) : nextTid prev ≠ 0 := by
  unfold nextTid
  split
  · decide
  · next h => intro h0; apply h; bv_omega

/-- Allocation never changes the mode (R23). -/
@[simp] theorem Builder.allocate_mode (bl : Builder) (u : Byte) : (bl.allocate u).2.mode = bl.mode := by
  unfold Builder.allocate; split <;> rfl

theorem Builder.allocate_tcp {bl : Builder} (h : bl.mode = .tcp) (u : Byte) :
    bl.allocate u = (nextTid (bl.tids.last u), { bl with tids := bl.tids.record u (nextTid (bl.tids.last u)) }) := by
  simp [Builder.allocate, h]

theorem Builder.allocate_rtu {bl : Builder} (h : bl.mode = .rtu) (u : Byte) : bl.allocate u = (0, bl) := by
  simp [Builder.allocate, h]

/-- All that `mk` can do when it answers a next state (R113). -/
theorem mk_next {kind : Kind} {b : Nat} {u : Byte} {f : Fn} {exc : Bool} {body : Body} {s t : State} :
    mk kind b u f exc body s = .next t ↔ ∃ bl, s.builders[b]? = some bl ∧ body.values.length ≤ 255 ∧
      t = (s.setBuilder b (bl.allocate u).2).post
        (.frame { kind := kind, head := builtHead (bl.allocate u).1 u f exc body, body := body }) := by
  unfold mk
  cases h : s.builders[b]? with
  | none => simp
  | some bl =>
    by_cases hv : 255 < body.values.length
    · have : ¬ body.values.length ≤ 255 := by omega
      simp [hv, this]
    · have : body.values.length ≤ 255 := by omega
      simp [hv, this, eq_comm]

/-- A built frame is WF wherever its body has the shape of its kind and function (R113). -/
theorem built_wf {kind : Kind} {u : Byte} {f : Fn} {exc : Bool} {body : Body} (tid : U16)
    (hs : body.shape = shapeFor kind f exc) (hk : kind = .request → exc = false) (hv : body.values.length ≤ 255) :
    Frame.wf { kind := kind, head := builtHead tid u f exc body, body := body } = true := by
  have hb : body.blen ≤ 260 := by cases body <;> simp_all [Body.blen, Body.values] <;> omega
  rw [Frame.wf_iff]
  refine ⟨hs, hk, hv, ?_⟩
  simp [builtHead, lengthFor]; omega

/-! ## Streams -/

/-- All that an RX_* operation can do when it answers a next state: the stream exists and its owner issued it (R49). -/
theorem withStream_next {n : Nat} {s t : State} {act : Stream → Outcome} :
    withStream n s act = .next t ↔
      ∃ st, s.streams[n]? = some st ∧ st.owner = s.issuer ∧ act st = .next t := by
  unfold withStream
  cases h : s.streams[n]? with
  | none => simp
  | some st => by_cases ho : st.owner = s.issuer <;> simp [ho]

/-- Fewer bytes fit where more do (R44). -/
theorem fitsCapacity_mono {cap : Option Nat} {j k : Nat} (h : fitsCapacity cap k = true) (hjk : j ≤ k) :
    fitsCapacity cap j = true := by
  cases cap <;> simp_all [fitsCapacity]; omega

/-- A decode only ever removes bytes from the front (R181). -/
theorem afterDecode_length_le (o : DecodeOutcome) (bs : Bytes) : (afterDecode o bs).length ≤ bs.length := by
  cases o <;> simp [afterDecode]

/-- Every write of a buffer that fits keeps every buffer within the capacity (R27, R44). -/
theorem setBuf_keeps_capacity {s : State} {n : Nat} {st : Stream} {bs : Bytes}
    (h : ∀ x ∈ s.streams, fitsCapacity s.rxCapacity x.buf.length = true)
    (hb : fitsCapacity s.rxCapacity bs.length = true) :
    ∀ x ∈ (s.setBuf n st bs).streams, fitsCapacity (s.setBuf n st bs).rxCapacity x.buf.length = true := by
  intro x hx
  rcases List.mem_or_eq_of_mem_set hx with hx | hx
  · exact h x hx
  · subst hx; exact hb

end Sys2Proof.Machine
end

