-- ==== Sys2Proof/Laws/Exec.lean ====
section
/-! SUPPORT. Every instruction is one of four kinds, and for each kind once what it does: a builder is `mk` on a body of the
right shape, an RX_* operation reaches its stream as the owner and returns one result, RESET clears, and every other
instruction returns a result that depends on its operands and the quirk alone. -/

namespace Sys2Proof.Machine

/-- A builder operation is `mk` on one frame's parts, whose body has the shape of its function (R113, R114 to R130). -/
theorem exec_build {i : Instr} {b : Nat} {u : Byte} (h : buildTarget i = some (b, u)) :
    ∃ (kind : Kind) (f : Fn) (exc : Bool) (body : Body), body.shape = shapeFor kind f exc ∧
      (kind = .request → exc = false) ∧ ∀ s : State, exec i s = mk kind b u f exc body s := by
  cases i <;> simp only [buildTarget, Option.some.injEq, Prod.mk.injEq, reduceCtorEq] at h <;> obtain ⟨rfl, rfl⟩ := h <;>
    exact ⟨_, _, _, _, rfl, by decide, fun _ => rfl⟩

/-- What an RX_* operation does to the stream it reached, where it completes: the buffer it leaves and the result. -/
def streamEffect (s : State) (st : Stream) : Instr → Option (Bytes × Result)
  | .rxPush _ bs =>
    if bs ≠ [] ∧ fitsCapacity s.rxCapacity (st.buf.length + bs.length) = true then some (st.buf ++ bs, .unit) else none
  | .rxDecode _ =>
    some (afterDecode (streamDecode s.refExcQuirk st.proto st.dir st.buf) st.buf,
      .outcome (streamDecode s.refExcQuirk st.proto st.dir st.buf))
  | .rxDiscard _ k => if k ≤ st.buf.length then some (st.buf.drop k, .unit) else none
  | .rxFlush _ => some ([], .unit)
  | .rxStatus _ => some (st.buf, .status st.buf.length (phase s.refExcQuirk st.proto st.dir st.buf))
  | _ => none

/-- Writing back what is there changes nothing. -/
theorem State.setBuf_self {s : State} {n : Nat} {st : Stream} (h : s.streams[n]? = some st) : s.setBuf n st st.buf = s := by
  obtain ⟨hn, rfl⟩ := List.getElem?_eq_some_iff.1 h
  exact congrArg (fun l => { s with streams := l }) (List.set_getElem_self hn)

/-- All that an RX_* operation can do when it answers a next state (R180 to R184). -/
theorem exec_stream_next {i : Instr} {n : Nat} {s t : State} (h : streamTarget i = some n) :
    exec i s = .next t ↔ ∃ st bs r, s.streams[n]? = some st ∧ st.owner = s.issuer ∧ streamEffect s st i = some (bs, r) ∧
      t = (s.setBuf n st bs).post r := by
  cases i <;> simp only [streamTarget, Option.some.injEq, reduceCtorEq] at h <;> subst h <;>
    simp only [exec, execRxPush, execRxDecode, execRxDiscard, execRxFlush, execRxStatus, withStream_next]
  case rxPush n bs =>
    constructor
    · rintro ⟨st, hs, ho, h⟩
      split at h
      · cases h
      · split at h
        · cases h
        · cases h
          exact ⟨st, _, _, hs, ho, by simp_all [streamEffect], rfl⟩
    · rintro ⟨st, bs', r, hs, ho, he, rfl⟩
      simp only [streamEffect, Option.ite_none_right_eq_some, Option.some.injEq, Prod.mk.injEq] at he
      obtain ⟨⟨h1, h2⟩, rfl, rfl⟩ := he
      exact ⟨st, hs, ho, by simp [h1, h2]⟩
  case rxDecode n =>
    constructor
    · rintro ⟨st, hs, ho, h⟩; cases h; exact ⟨st, _, _, hs, ho, rfl, rfl⟩
    · rintro ⟨st, bs', r, hs, ho, he, rfl⟩; cases he; exact ⟨st, hs, ho, rfl⟩
  case rxDiscard n k =>
    constructor
    · rintro ⟨st, hs, ho, h⟩
      split at h
      · cases h
      · cases h
        exact ⟨st, _, _, hs, ho, by simp_all [streamEffect], rfl⟩
    · rintro ⟨st, bs', r, hs, ho, he, rfl⟩
      simp only [streamEffect, Option.ite_none_right_eq_some, Option.some.injEq, Prod.mk.injEq] at he
      obtain ⟨h1, rfl, rfl⟩ := he
      exact ⟨st, hs, ho, by simp [h1]⟩
  case rxFlush n =>
    constructor
    · rintro ⟨st, hs, ho, h⟩; cases h; exact ⟨st, _, _, hs, ho, rfl, rfl⟩
    · rintro ⟨st, bs', r, hs, ho, he, rfl⟩; cases he; exact ⟨st, hs, ho, rfl⟩
  case rxStatus n =>
    constructor
    · rintro ⟨st, hs, ho, h⟩; cases h; exact ⟨st, _, _, hs, ho, rfl, by rw [State.setBuf_self hs]⟩
    · rintro ⟨st, bs', r, hs, ho, he, rfl⟩; cases he; exact ⟨st, hs, ho, by rw [State.setBuf_self hs]⟩

/-- Every other instruction but RESET returns a result that depends on its operands and the quirk alone, and changes nothing
else; or it is an encoder whose operand is not WF, and is refused in every state. -/
theorem exec_pure {i : Instr} (hb : buildTarget i = none) (hs : streamTarget i = none) (hr : i ≠ .reset) :
    (∃ g : Bool → Result, ∀ s : State, exec i s = .next (s.post (g s.refExcQuirk))) ∨
    (∀ s : State, exec i s = .refused .notWellFormed) := by
  cases i <;> simp only [buildTarget, streamTarget, reduceCtorEq, ne_eq, not_true_eq_false] at hb hs hr
  case encodeTcp fr =>
    by_cases h : fr.wf = true
    · exact .inl ⟨fun _ => .bytes (tcpEncode fr), fun s => by simp [exec, execEncodeTcp, h]⟩
    · exact .inr fun s => by simp [exec, execEncodeTcp, h]
  case encodeRtu fr =>
    by_cases h : fr.wf = true
    · exact .inl ⟨fun _ => .bytes (rtuEncode fr), fun s => by simp [exec, execEncodeRtu, h]⟩
    · exact .inr fun s => by simp [exec, execEncodeRtu, h]
  case wireExceptionCodeIllegalFunction =>
    refine .inl ⟨fun q => .exception (if q then .illegalDataValue else .illegalFunction), fun s => ?_⟩
    cases h : s.refExcQuirk <;> simp [exec, execWireExceptionCodeIllegalFunction, wireException, excDecode, h]
  case wireExceptionCodeIllegalDataAddress =>
    refine .inl ⟨fun _ => .exception .illegalDataAddress, fun s => ?_⟩
    simp [exec, execWireExceptionCodeIllegalDataAddress, wireException, excDecode]
  case wireExceptionCodeIllegalDataValue =>
    refine .inl ⟨fun _ => .exception .illegalDataValue, fun s => ?_⟩
    simp [exec, execWireExceptionCodeIllegalDataValue, wireException, excDecode]
  case wireExceptionCodeSlaveDeviceFailure =>
    refine .inl ⟨fun _ => .exception .slaveDeviceFailure, fun s => ?_⟩
    simp [exec, execWireExceptionCodeSlaveDeviceFailure, wireException, excDecode]
  case wireExceptionCodeAcknowledge =>
    refine .inl ⟨fun _ => .exception .acknowledge, fun s => ?_⟩
    simp [exec, execWireExceptionCodeAcknowledge, wireException, excDecode]
  case decodeTcpReq bs => exact .inl ⟨fun q => .outcome (tcpDecode q .req bs), fun _ => rfl⟩
  case decodeTcpRsp bs => exact .inl ⟨fun q => .outcome (tcpDecode q .rsp bs), fun _ => rfl⟩
  case decodeRtuReq bs => exact .inl ⟨fun q => .outcome (rtuDecode q .req bs), fun _ => rfl⟩
  case decodeRtuRsp bs => exact .inl ⟨fun q => .outcome (rtuDecode q .rsp bs), fun _ => rfl⟩
  all_goals exact .inl ⟨fun _ => _, fun _ => rfl⟩

end Sys2Proof.Machine
end

