-- ==== Sys2Proof/Laws/PerInstr.lean ====
section
/-! SUPPORT. One lemma per constructor of `Instr`: the decoder reads every instruction back from its encoding, with every
operand at every value of its type (R90, R62 to R64). -/

namespace Sys2Proof.Laws.Encoded

/-- The decoder reads the instruction back from its encoding, whoever issues it. -/
def Statement (i : Instr) : Prop := ∀ a : Agent, decode (encode a i) = .ok i

/-- A code whose operands are `b, unit` and two u16. -/
theorem twoWord {a : Agent} {code : Byte} {k : Nat → Byte → U16 → U16 → Instr} (h : operationForm code = some (twoWordForm k))
    (b : Nat) (u : Byte) (x y : U16) : decode (opIssue a code (twoWordOperands b u x y)) = .ok (k b u x y) := by
  simp [opIssue, decode, decodeOperation, h, twoWordOperands, twoWordForm, asU8_toNat, asU16_toNat]

/-- A code whose operands are `b, unit`, two u16 and values. -/
theorem twoWordValues {a : Agent} {code : Byte} {k : Nat → Byte → U16 → U16 → Bytes → Instr}
    (h : operationForm code = some (twoWordValuesForm k)) (b : Nat) (u : Byte) (x y : U16) (vs : Bytes) :
    decode (opIssue a code (twoWordOperands b u x y ++ [.bytes vs])) = .ok (k b u x y vs) := by
  simp [opIssue, decode, decodeOperation, h, twoWordOperands, twoWordValuesForm, asU8_toNat, asU16_toNat]

/-- A code whose operands are `b, unit` and values. -/
theorem unitValues {a : Agent} {code : Byte} {k : Nat → Byte → Bytes → Instr} (h : operationForm code = some (valuesForm k))
    (b : Nat) (u : Byte) (vs : Bytes) : decode (opIssue a code [.num b, .num u.toNat, .bytes vs]) = .ok (k b u vs) := by
  simp [opIssue, decode, decodeOperation, h, valuesForm, asU8_toNat]

/-- A function byte of a frame. -/
theorem fnByte {a : Agent} {dir : Dir} {fb : Byte} {f : Fn} {exc : Bool} (h : classify dir fb = .ok (f, exc)) (body : Bytes) :
    decode (fnIssue a dir fb body) = .ok (wireInstr dir f exc body) := by
  simp [fnIssue, decode, decodeFunctionByte, h]

/-- An exception code of a frame. -/
theorem excByte {a : Agent} {x : Byte} {e : Exc} (h : excDecode false x = some e) :
    decode (excIssue a x) = .ok (wireExcInstr e) := by
  simp [excIssue, decode, decodeExceptionByte, h]

theorem crcCompute (bs : Bytes) : Statement (.crcCompute bs) := fun _ => rfl
theorem crcCheck (bs : Bytes) (candidate : U16) : Statement (.crcCheck bs candidate) := by
  intro a; simp [encode, opIssue, decode, decodeOperation, operationForm, bytesWordForm, asU16_toNat]
theorem buildReqReadCoils (b : Nat) (unit : Byte) (firstAddress count : U16) : Statement (.buildReqReadCoils b unit firstAddress count) := fun _ => twoWord rfl ..
theorem buildReqReadDiscreteInputs (b : Nat) (unit : Byte) (firstAddress count : U16) : Statement (.buildReqReadDiscreteInputs b unit firstAddress count) := fun _ => twoWord rfl ..
theorem buildReqReadHoldingRegisters (b : Nat) (unit : Byte) (firstAddress count : U16) : Statement (.buildReqReadHoldingRegisters b unit firstAddress count) := fun _ => twoWord rfl ..
theorem buildReqReadInputRegisters (b : Nat) (unit : Byte) (firstAddress count : U16) : Statement (.buildReqReadInputRegisters b unit firstAddress count) := fun _ => twoWord rfl ..
theorem buildReqWriteSingleCoil (b : Nat) (unit : Byte) (address value : U16) : Statement (.buildReqWriteSingleCoil b unit address value) := fun _ => twoWord rfl ..
theorem buildReqWriteSingleRegister (b : Nat) (unit : Byte) (address value : U16) : Statement (.buildReqWriteSingleRegister b unit address value) := fun _ => twoWord rfl ..
theorem buildReqWriteMultipleCoils (b : Nat) (unit : Byte) (firstAddress count : U16) (values : Bytes) : Statement (.buildReqWriteMultipleCoils b unit firstAddress count values) := fun _ => twoWordValues rfl ..
theorem buildReqWriteMultipleRegisters (b : Nat) (unit : Byte) (firstAddress count : U16) (values : Bytes) : Statement (.buildReqWriteMultipleRegisters b unit firstAddress count values) := fun _ => twoWordValues rfl ..
theorem buildRspReadCoils (b : Nat) (unit : Byte) (values : Bytes) : Statement (.buildRspReadCoils b unit values) := fun _ => unitValues rfl ..
theorem buildRspReadDiscreteInputs (b : Nat) (unit : Byte) (values : Bytes) : Statement (.buildRspReadDiscreteInputs b unit values) := fun _ => unitValues rfl ..
theorem buildRspReadHoldingRegisters (b : Nat) (unit : Byte) (values : Bytes) : Statement (.buildRspReadHoldingRegisters b unit values) := fun _ => unitValues rfl ..
theorem buildRspReadInputRegisters (b : Nat) (unit : Byte) (values : Bytes) : Statement (.buildRspReadInputRegisters b unit values) := fun _ => unitValues rfl ..
theorem buildRspWriteSingleCoil (b : Nat) (unit : Byte) (address value : U16) : Statement (.buildRspWriteSingleCoil b unit address value) := fun _ => twoWord rfl ..
theorem buildRspWriteSingleRegister (b : Nat) (unit : Byte) (address value : U16) : Statement (.buildRspWriteSingleRegister b unit address value) := fun _ => twoWord rfl ..
theorem buildRspWriteMultipleCoils (b : Nat) (unit : Byte) (firstAddress count : U16) : Statement (.buildRspWriteMultipleCoils b unit firstAddress count) := fun _ => twoWord rfl ..
theorem buildRspWriteMultipleRegisters (b : Nat) (unit : Byte) (firstAddress count : U16) : Statement (.buildRspWriteMultipleRegisters b unit firstAddress count) := fun _ => twoWord rfl ..
theorem buildException (b : Nat) (unit : Byte) (function : Fn) (exception : Exc) : Statement (.buildException b unit function exception) := by
  intro a; simp [encode, opIssue, decode, decodeOperation, operationForm, exceptionForm, asU8_toNat, asFn_index, asExc_index]
theorem encodeTcp (fr : Frame) : Statement (.encodeTcp fr) := fun _ => rfl
theorem encodeRtu (fr : Frame) : Statement (.encodeRtu fr) := fun _ => rfl
theorem decodeTcpReq (bs : Bytes) : Statement (.decodeTcpReq bs) := fun _ => rfl
theorem decodeTcpRsp (bs : Bytes) : Statement (.decodeTcpRsp bs) := fun _ => rfl
theorem decodeRtuReq (bs : Bytes) : Statement (.decodeRtuReq bs) := fun _ => rfl
theorem decodeRtuRsp (bs : Bytes) : Statement (.decodeRtuRsp bs) := fun _ => rfl
theorem rxPush (s : Nat) (bs : Bytes) : Statement (.rxPush s bs) := fun _ => rfl
theorem rxDecode (s : Nat) : Statement (.rxDecode s) := fun _ => rfl
theorem rxDiscard (s n : Nat) : Statement (.rxDiscard s n) := fun _ => rfl
theorem rxFlush (s : Nat) : Statement (.rxFlush s) := fun _ => rfl
theorem rxStatus (s : Nat) : Statement (.rxStatus s) := fun _ => rfl
theorem reset : Statement .reset := fun _ => rfl
theorem wireReqReadCoils (body : Bytes) : Statement (.wireReqReadCoils body) := fun _ => fnByte (dir := .req) (f := .readCoils) (exc := false) (by rfl) body
theorem wireReqReadDiscreteInputs (body : Bytes) : Statement (.wireReqReadDiscreteInputs body) := fun _ => fnByte (dir := .req) (f := .readDiscreteInputs) (exc := false) (by rfl) body
theorem wireReqReadMultipleHoldingRegisters (body : Bytes) : Statement (.wireReqReadMultipleHoldingRegisters body) := fun _ => fnByte (dir := .req) (f := .readMultipleHoldingRegisters) (exc := false) (by rfl) body
theorem wireReqReadInputRegisters (body : Bytes) : Statement (.wireReqReadInputRegisters body) := fun _ => fnByte (dir := .req) (f := .readInputRegisters) (exc := false) (by rfl) body
theorem wireReqWriteSingleCoil (body : Bytes) : Statement (.wireReqWriteSingleCoil body) := fun _ => fnByte (dir := .req) (f := .writeSingleCoil) (exc := false) (by rfl) body
theorem wireReqWriteSingleHoldingRegister (body : Bytes) : Statement (.wireReqWriteSingleHoldingRegister body) := fun _ => fnByte (dir := .req) (f := .writeSingleHoldingRegister) (exc := false) (by rfl) body
theorem wireReqWriteMultipleCoils (body : Bytes) : Statement (.wireReqWriteMultipleCoils body) := fun _ => fnByte (dir := .req) (f := .writeMultipleCoils) (exc := false) (by rfl) body
theorem wireReqWriteMultipleHoldingRegisters (body : Bytes) : Statement (.wireReqWriteMultipleHoldingRegisters body) := fun _ => fnByte (dir := .req) (f := .writeMultipleHoldingRegisters) (exc := false) (by rfl) body
theorem wireRspReadCoils (body : Bytes) : Statement (.wireRspReadCoils body) := fun _ => fnByte (dir := .rsp) (f := .readCoils) (exc := false) (by rfl) body
theorem wireRspReadDiscreteInputs (body : Bytes) : Statement (.wireRspReadDiscreteInputs body) := fun _ => fnByte (dir := .rsp) (f := .readDiscreteInputs) (exc := false) (by rfl) body
theorem wireRspReadMultipleHoldingRegisters (body : Bytes) : Statement (.wireRspReadMultipleHoldingRegisters body) := fun _ => fnByte (dir := .rsp) (f := .readMultipleHoldingRegisters) (exc := false) (by rfl) body
theorem wireRspReadInputRegisters (body : Bytes) : Statement (.wireRspReadInputRegisters body) := fun _ => fnByte (dir := .rsp) (f := .readInputRegisters) (exc := false) (by rfl) body
theorem wireRspWriteSingleCoil (body : Bytes) : Statement (.wireRspWriteSingleCoil body) := fun _ => fnByte (dir := .rsp) (f := .writeSingleCoil) (exc := false) (by rfl) body
theorem wireRspWriteSingleHoldingRegister (body : Bytes) : Statement (.wireRspWriteSingleHoldingRegister body) := fun _ => fnByte (dir := .rsp) (f := .writeSingleHoldingRegister) (exc := false) (by rfl) body
theorem wireRspWriteMultipleCoils (body : Bytes) : Statement (.wireRspWriteMultipleCoils body) := fun _ => fnByte (dir := .rsp) (f := .writeMultipleCoils) (exc := false) (by rfl) body
theorem wireRspWriteMultipleHoldingRegisters (body : Bytes) : Statement (.wireRspWriteMultipleHoldingRegisters body) := fun _ => fnByte (dir := .rsp) (f := .writeMultipleHoldingRegisters) (exc := false) (by rfl) body
theorem wireRspExceptionReadCoils (body : Bytes) : Statement (.wireRspExceptionReadCoils body) := fun _ => fnByte (dir := .rsp) (f := .readCoils) (exc := true) (by rfl) body
theorem wireRspExceptionReadDiscreteInputs (body : Bytes) : Statement (.wireRspExceptionReadDiscreteInputs body) := fun _ => fnByte (dir := .rsp) (f := .readDiscreteInputs) (exc := true) (by rfl) body
theorem wireRspExceptionReadMultipleHoldingRegisters (body : Bytes) : Statement (.wireRspExceptionReadMultipleHoldingRegisters body) := fun _ => fnByte (dir := .rsp) (f := .readMultipleHoldingRegisters) (exc := true) (by rfl) body
theorem wireRspExceptionReadInputRegisters (body : Bytes) : Statement (.wireRspExceptionReadInputRegisters body) := fun _ => fnByte (dir := .rsp) (f := .readInputRegisters) (exc := true) (by rfl) body
theorem wireRspExceptionWriteSingleCoil (body : Bytes) : Statement (.wireRspExceptionWriteSingleCoil body) := fun _ => fnByte (dir := .rsp) (f := .writeSingleCoil) (exc := true) (by rfl) body
theorem wireRspExceptionWriteSingleHoldingRegister (body : Bytes) : Statement (.wireRspExceptionWriteSingleHoldingRegister body) := fun _ => fnByte (dir := .rsp) (f := .writeSingleHoldingRegister) (exc := true) (by rfl) body
theorem wireRspExceptionWriteMultipleCoils (body : Bytes) : Statement (.wireRspExceptionWriteMultipleCoils body) := fun _ => fnByte (dir := .rsp) (f := .writeMultipleCoils) (exc := true) (by rfl) body
theorem wireRspExceptionWriteMultipleHoldingRegisters (body : Bytes) : Statement (.wireRspExceptionWriteMultipleHoldingRegisters body) := fun _ => fnByte (dir := .rsp) (f := .writeMultipleHoldingRegisters) (exc := true) (by rfl) body
theorem wireExceptionCodeIllegalFunction : Statement .wireExceptionCodeIllegalFunction := fun _ => excByte (e := .illegalFunction) (by rfl)
theorem wireExceptionCodeIllegalDataAddress : Statement .wireExceptionCodeIllegalDataAddress := fun _ => excByte (e := .illegalDataAddress) (by rfl)
theorem wireExceptionCodeIllegalDataValue : Statement .wireExceptionCodeIllegalDataValue := fun _ => excByte (e := .illegalDataValue) (by rfl)
theorem wireExceptionCodeSlaveDeviceFailure : Statement .wireExceptionCodeSlaveDeviceFailure := fun _ => excByte (e := .slaveDeviceFailure) (by rfl)
theorem wireExceptionCodeAcknowledge : Statement .wireExceptionCodeAcknowledge := fun _ => excByte (e := .acknowledge) (by rfl)

end Sys2Proof.Laws.Encoded
end

