-- ==== Sys2Proof/Tests/Slice0.lean ====
section
/-! SUPPORT. Tests of the model, each one step on a small state with the expected value taken from the spec (V numbers are those of
spec/95_test_vectors.md, examples those of the rules named); the WellFormed smoke tests; and, for each statement that has
hypotheses, a witness that they can be met. -/

-- One thread: the theorems below are many and short, and each would wait on a thread of its own.
set_option Elab.async false

namespace Sys2Proof.Tests

open Sys2Proof.Machine Sys2Proof.Claims

/-! ## Small states -/

/-- One fresh builder and one stream, owned by agent 0. -/
def small (m : Mode) (p : Proto) (d : Dir) (buf : Bytes) : State :=
  { State.ofConfig { modes := [m], streams := [{ proto := p, dir := d, owner := 0 }], rxCapacity := none, refExcQuirk := false } with
    streams := [{ proto := p, dir := d, owner := 0, buf := buf }] }

/-- A fresh TCP builder. -/
def tcpBuilder : State := small .tcp .tcp .req []

/-- The last id of unit `u` on builder 0 set to `id`. -/
def lastIs (s : State) (u : Byte) (id : U16) : State :=
  { s with builders := s.builders.map fun bl => { bl with tids := bl.tids.record u id } }

/-- The result a step ends with. -/
def resultOf : Outcome → Option Result
  | .next t => t.results.getLast?
  | _ => none

/-- The outcome a decode returns. -/
def outcomeOf (o : Outcome) : Option DecodeOutcome :=
  match resultOf o with
  | some (.outcome d) => some d
  | _ => none

/-- Why a step is refused. -/
def refusalOf : Outcome → Option Refusal
  | .refused r => some r
  | _ => none

/-- The buffer of stream 0 afterwards. -/
def bufferOf : Outcome → Option Bytes
  | .next t => t.streams[0]?.map (·.buf)
  | _ => none

/-- The last id of unit `u` on builder 0 afterwards. -/
def lastIdOf (u : Byte) : Outcome → Option U16
  | .next t => t.builders[0]?.map (·.tids.last u)
  | _ => none

/-- The TCP and the RTU bytes of the frame a builder returns on a fresh TCP builder. -/
def wireOf (i : Instr) : Option (Bytes × Bytes) :=
  match resultOf (exec i tcpBuilder) with
  | some (.frame fr) => some (tcpEncode fr, rtuEncode fr)
  | _ => none

/-- The frame of V3: the exception response of unit 0x0A to ReadCoils, IllegalDataAddress. -/
def v3 (tid : U16) : Frame :=
  { kind := .response,
    head := { transactionId := tid, protocolId := 0, length := 3, unitId := 0x0A, function := .readCoils, isException := true },
    body := .exceptionRsp .illegalDataAddress }

/-- The frame of V23 with the transaction id, the kind, the function, the length and the body given. -/
def frameOf (k : Kind) (tid len : U16) (u : Byte) (f : Fn) (b : Body) : Frame :=
  { kind := k,
    head := { transactionId := tid, protocolId := 0, length := len, unitId := u, function := f, isException := false },
    body := b }

/-! ## CRC -/

/-- V1, V20. -/
theorem test_crc_compute_v1 :
    resultOf (exec (.crcCompute [0x0B, 0x01, 0x00, 0x1D, 0x00, 0x1F]) tcpBuilder) = some (.word 0x6EED) := by decide +kernel

/-- V14. -/
theorem test_crc_compute_v14 :
    resultOf (exec (.crcCompute [0x31, 0x32, 0x33, 0x34, 0x35, 0x36, 0x37, 0x38, 0x39]) tcpBuilder) = some (.word 0x4B37) := by decide +kernel

/-- V18, V19. -/
theorem test_crc_check_v18_v19 :
    resultOf (exec (.crcCheck [0x0B, 0x01, 0x00, 0x1D, 0x00, 0x1F] 0x6EED) tcpBuilder) = some (.bool true) ∧
    resultOf (exec (.crcCheck [0x0B, 0x01, 0x00, 0x1D, 0x00, 0x1F] 0xED6E) tcpBuilder) = some (.bool false) := by decide +kernel

/-- V10 to V13, V15, V16. -/
theorem test_crc_v10_to_v16 :
    crc16 [] = 0xFFFF ∧ crc16 [0x00] = 0x40BF ∧ crc16 [0xFF] = 0x00FF ∧ crc16 [0x01] = 0x807E ∧ crc16 [0x00, 0x00] = 0xB001 ∧
    crc16 [0xFF, 0xFF] = 0x0000 := by decide +kernel

/-! ## Builders: the examples of R114 to R130 -/

/-- R114. -/
theorem test_build_req_read_coils :
    wireOf (.buildReqReadCoils 0 0x11 0x0013 0x0025) = some ([0x00, 0x01, 0x00, 0x00, 0x00, 0x06, 0x11, 0x01, 0x00, 0x13, 0x00, 0x25], [0x11, 0x01, 0x00, 0x13, 0x00, 0x25, 0x0E, 0x84]) := by decide +kernel

/-- R115. -/
theorem test_build_req_read_discrete_inputs :
    wireOf (.buildReqReadDiscreteInputs 0 0x11 0x00C4 0x0016) = some ([0x00, 0x01, 0x00, 0x00, 0x00, 0x06, 0x11, 0x02, 0x00, 0xC4, 0x00, 0x16], [0x11, 0x02, 0x00, 0xC4, 0x00, 0x16, 0xBA, 0xA9]) := by decide +kernel

/-- R116. -/
theorem test_build_req_read_holding_registers :
    wireOf (.buildReqReadHoldingRegisters 0 0x11 0x006B 0x0003) = some ([0x00, 0x01, 0x00, 0x00, 0x00, 0x06, 0x11, 0x03, 0x00, 0x6B, 0x00, 0x03], [0x11, 0x03, 0x00, 0x6B, 0x00, 0x03, 0x76, 0x87]) := by decide +kernel

/-- R117. -/
theorem test_build_req_read_input_registers :
    wireOf (.buildReqReadInputRegisters 0 0x11 0x0008 0x0001) = some ([0x00, 0x01, 0x00, 0x00, 0x00, 0x06, 0x11, 0x04, 0x00, 0x08, 0x00, 0x01], [0x11, 0x04, 0x00, 0x08, 0x00, 0x01, 0xB2, 0x98]) := by decide +kernel

/-- R118. -/
theorem test_build_req_write_single_coil :
    wireOf (.buildReqWriteSingleCoil 0 0x11 0x00AC 0xFF00) = some ([0x00, 0x01, 0x00, 0x00, 0x00, 0x06, 0x11, 0x05, 0x00, 0xAC, 0xFF, 0x00], [0x11, 0x05, 0x00, 0xAC, 0xFF, 0x00, 0x4E, 0x8B]) := by decide +kernel

/-- R119. -/
theorem test_build_req_write_single_register :
    wireOf (.buildReqWriteSingleRegister 0 0x11 0x0001 0x0003) = some ([0x00, 0x01, 0x00, 0x00, 0x00, 0x06, 0x11, 0x06, 0x00, 0x01, 0x00, 0x03], [0x11, 0x06, 0x00, 0x01, 0x00, 0x03, 0x9A, 0x9B]) := by decide +kernel

/-- R120, V4. -/
theorem test_build_req_write_multiple_coils :
    wireOf (.buildReqWriteMultipleCoils 0 0x01 0x001B 0x0009 [0x4D, 0x01]) = some ([0x00, 0x01, 0x00, 0x00, 0x00, 0x09, 0x01, 0x0F, 0x00, 0x1B, 0x00, 0x09, 0x02, 0x4D, 0x01], [0x01, 0x0F, 0x00, 0x1B, 0x00, 0x09, 0x02, 0x4D, 0x01, 0x12, 0x07]) := by decide +kernel

/-- R121. -/
theorem test_build_req_write_multiple_registers :
    wireOf (.buildReqWriteMultipleRegisters 0 0x11 0x0001 0x0002 [0x00, 0x0A, 0x01, 0x02]) = some ([0x00, 0x01, 0x00, 0x00, 0x00, 0x0B, 0x11, 0x10, 0x00, 0x01, 0x00, 0x02, 0x04, 0x00, 0x0A, 0x01, 0x02], [0x11, 0x10, 0x00, 0x01, 0x00, 0x02, 0x04, 0x00, 0x0A, 0x01, 0x02, 0xC6, 0xF0]) := by decide +kernel

/-- R122. -/
theorem test_build_rsp_read_coils :
    wireOf (.buildRspReadCoils 0 0x11 [0xCD, 0x6B, 0x05]) = some ([0x00, 0x01, 0x00, 0x00, 0x00, 0x06, 0x11, 0x01, 0x03, 0xCD, 0x6B, 0x05], [0x11, 0x01, 0x03, 0xCD, 0x6B, 0x05, 0x40, 0x12]) := by decide +kernel

/-- R123. -/
theorem test_build_rsp_read_discrete_inputs :
    wireOf (.buildRspReadDiscreteInputs 0 0x11 [0xAC, 0xDB, 0x35]) = some ([0x00, 0x01, 0x00, 0x00, 0x00, 0x06, 0x11, 0x02, 0x03, 0xAC, 0xDB, 0x35], [0x11, 0x02, 0x03, 0xAC, 0xDB, 0x35, 0x20, 0x18]) := by decide +kernel

/-- R124. -/
theorem test_build_rsp_read_holding_registers :
    wireOf (.buildRspReadHoldingRegisters 0 0x11 [0x02, 0x2B, 0x00, 0x00, 0x00, 0x64]) = some ([0x00, 0x01, 0x00, 0x00, 0x00, 0x09, 0x11, 0x03, 0x06, 0x02, 0x2B, 0x00, 0x00, 0x00, 0x64], [0x11, 0x03, 0x06, 0x02, 0x2B, 0x00, 0x00, 0x00, 0x64, 0xC8, 0xBA]) := by decide +kernel

/-- R125. -/
theorem test_build_rsp_read_input_registers :
    wireOf (.buildRspReadInputRegisters 0 0x11 [0x00, 0x0A]) = some ([0x00, 0x01, 0x00, 0x00, 0x00, 0x05, 0x11, 0x04, 0x02, 0x00, 0x0A], [0x11, 0x04, 0x02, 0x00, 0x0A, 0xF8, 0xF4]) := by decide +kernel

/-- R126. -/
theorem test_build_rsp_write_single_coil :
    wireOf (.buildRspWriteSingleCoil 0 0x11 0x00AC 0xFF00) = some ([0x00, 0x01, 0x00, 0x00, 0x00, 0x06, 0x11, 0x05, 0x00, 0xAC, 0xFF, 0x00], [0x11, 0x05, 0x00, 0xAC, 0xFF, 0x00, 0x4E, 0x8B]) := by decide +kernel

/-- R127. -/
theorem test_build_rsp_write_single_register :
    wireOf (.buildRspWriteSingleRegister 0 0x11 0x0001 0x0003) = some ([0x00, 0x01, 0x00, 0x00, 0x00, 0x06, 0x11, 0x06, 0x00, 0x01, 0x00, 0x03], [0x11, 0x06, 0x00, 0x01, 0x00, 0x03, 0x9A, 0x9B]) := by decide +kernel

/-- R128, V3. -/
theorem test_build_exception :
    wireOf (.buildException 0 0x0A .readCoils .illegalDataAddress) = some ([0x00, 0x01, 0x00, 0x00, 0x00, 0x03, 0x0A, 0x81, 0x02], [0x0A, 0x81, 0x02, 0xB0, 0x53]) := by decide +kernel

/-- R129. -/
theorem test_build_rsp_write_multiple_coils :
    wireOf (.buildRspWriteMultipleCoils 0 0x11 0x0013 0x000A) = some ([0x00, 0x01, 0x00, 0x00, 0x00, 0x06, 0x11, 0x0F, 0x00, 0x13, 0x00, 0x0A], [0x11, 0x0F, 0x00, 0x13, 0x00, 0x0A, 0x26, 0x99]) := by decide +kernel

/-- R130. -/
theorem test_build_rsp_write_multiple_registers :
    wireOf (.buildRspWriteMultipleRegisters 0 0x11 0x0001 0x0002) = some ([0x00, 0x01, 0x00, 0x00, 0x00, 0x06, 0x11, 0x10, 0x00, 0x01, 0x00, 0x02], [0x11, 0x10, 0x00, 0x01, 0x00, 0x02, 0x12, 0x98]) := by decide +kernel

/-- V25: ids are per unit. -/
theorem test_tid_per_unit_v25 :
    lastIdOf 0x12 (exec (.buildReqReadCoils 0 0x12 0 1) (lastIs tcpBuilder 0x11 2)) = some 1 ∧
    lastIdOf 0x11 (exec (.buildReqReadCoils 0 0x12 0 1) (lastIs tcpBuilder 0x11 2)) = some 2 := by decide +kernel

/-- V24: a response build advances the same counter (D8). -/
theorem test_tid_response_advances_v24 :
    lastIdOf 0x11 (exec (.buildRspReadHoldingRegisters 0 0x11 [0x02, 0x2B, 0x00, 0x00, 0x00, 0x64]) (lastIs tcpBuilder 0x11 1)) = some 2 := by decide +kernel

/-- V26, R115: 0xFFFF is followed by 1. -/
theorem test_tid_wrap_v26 :
    resultOf (exec (.buildReqReadDiscreteInputs 0 0x00 0 1) (lastIs tcpBuilder 0x00 0xFFFF)) =
      some (.frame (frameOf .request 1 6 0x00 .readDiscreteInputs (.readReq 0 1))) := by decide +kernel

/-- V27. -/
theorem test_tid_rtu_v27 :
    resultOf (exec (.buildException 0 0x05 .writeSingleCoil .slaveDeviceFailure) (small .rtu .rtu .rsp [])) =
      some (.frame { kind := .response,
                     head := { transactionId := 0, protocolId := 0, length := 3, unitId := 0x05, function := .writeSingleCoil,
                               isException := true },
                     body := .exceptionRsp .slaveDeviceFailure }) ∧
    lastIdOf 0x05 (exec (.buildException 0 0x05 .writeSingleCoil .slaveDeviceFailure) (small .rtu .rtu .rsp [])) = some 0 := by decide +kernel

/-- V28. -/
theorem test_build_empty_values_v28 :
    wireOf (.buildReqWriteMultipleRegisters 0 0x01 0x0001 0x0000 []) =
      some ([0x00, 0x01, 0x00, 0x00, 0x00, 0x07, 0x01, 0x10, 0x00, 0x01, 0x00, 0x00, 0x00], rtuEncode (frameOf .request 1 7 0x01 .writeMultipleHoldingRegisters (.writeMultiReq 1 0 []))) := by decide +kernel

/-- V31. -/
theorem test_build_no_values_v31 :
    wireOf (.buildRspReadCoils 0 0x11 []) = some ([0x00, 0x01, 0x00, 0x00, 0x00, 0x03, 0x11, 0x01, 0x00], [0x11, 0x01, 0x00, 0x20, 0x55]) := by decide +kernel

/-- V30. -/
theorem test_build_too_long_v30 :
    refusalOf (exec (.buildReqWriteMultipleCoils 0 0x01 0 8 (List.replicate 256 0x00)) tcpBuilder) = some .valuesTooLong := by decide +kernel

/-- V33. -/
theorem test_build_bad_index_v33 :
    refusalOf (exec (.buildReqReadCoils 1 0x01 0 1) tcpBuilder) = some .operandOutOfRange := by decide +kernel

/-! ## Encoders -/

/-- V3. -/
theorem test_encode_tcp_v3 :
    resultOf (exec (.encodeTcp (v3 1)) tcpBuilder) = some (.bytes [0x00, 0x01, 0x00, 0x00, 0x00, 0x03, 0x0A, 0x81, 0x02]) := by decide +kernel

/-- V66. -/
theorem test_encode_tcp_refuses_v66 :
    refusalOf (exec (.encodeTcp (frameOf .request 0 7 0 .readCoils (.readReq 0 1))) tcpBuilder) = some .notWellFormed := by decide +kernel

/-- V3. -/
theorem test_encode_rtu_v3 :
    resultOf (exec (.encodeRtu (v3 1)) tcpBuilder) = some (.bytes [0x0A, 0x81, 0x02, 0xB0, 0x53]) := by decide +kernel

/-- V27; R160: the transaction id does not matter. -/
theorem test_encode_rtu_v27 :
    resultOf (exec (.encodeRtu { kind := .response, head := { transactionId := 7, protocolId := 0, length := 3, unitId := 0x05, function := .writeSingleCoil, isException := true }, body := .exceptionRsp .slaveDeviceFailure }) tcpBuilder) =
      some (.bytes [0x05, 0x85, 0x04, 0x02, 0x92]) := by decide +kernel

/-! ## Decodes -/

/-- V34a to V34d, V34q, V34r. -/
theorem test_decode_tcp_req_frames :
    outcomeOf (exec (.decodeTcpReq [0x00, 0x01, 0x00, 0x00, 0x00, 0x06, 0x11, 0x03, 0x00, 0x6B, 0x00, 0x03]) tcpBuilder) = some (.frame (frameOf .request 1 6 0x11 .readMultipleHoldingRegisters (.readReq 0x006B 0x0003)) 12) ∧
    outcomeOf (exec (.decodeTcpReq [0x00, 0x01, 0x00, 0x00, 0x00, 0x06, 0x11]) tcpBuilder) = some .incomplete ∧
    outcomeOf (exec (.decodeTcpReq [0x00, 0x01, 0x00, 0x00, 0x00, 0x06, 0x11, 0x03, 0x00, 0x6B, 0x00]) tcpBuilder) = some .incomplete ∧
    outcomeOf (exec (.decodeTcpReq [0x00, 0x01, 0x00, 0x00, 0x00, 0x06, 0x11, 0x03, 0x00, 0x6B, 0x00, 0x03, 0xAA, 0xBB]) tcpBuilder) = some (.frame (frameOf .request 1 6 0x11 .readMultipleHoldingRegisters (.readReq 0x006B 0x0003)) 12) ∧
    outcomeOf (exec (.decodeTcpReq [0x00, 0x01, 0x00, 0x00, 0x00, 0x07, 0x11, 0x10, 0x00, 0x01, 0x00, 0x00, 0x00]) tcpBuilder) = some (.frame (frameOf .request 1 7 0x11 .writeMultipleHoldingRegisters (.writeMultiReq 0x0001 0x0000 [])) 13) ∧
    outcomeOf (exec (.decodeTcpReq [0x00, 0x01, 0x00, 0x00, 0xFF, 0xFF, 0x11, 0x03, 0x00, 0x6B, 0x00, 0x03]) tcpBuilder) = some .incomplete := by decide +kernel

/-- V34f to V34j, V34l, V34n to V34p. -/
theorem test_decode_tcp_req_errors :
    outcomeOf (exec (.decodeTcpReq [0x00, 0x01, 0x00, 0x00, 0x00, 0x01, 0x11, 0x03]) tcpBuilder) = some (.error (.lengthMismatch 0x0001)) ∧
    outcomeOf (exec (.decodeTcpReq [0x00, 0x01, 0x00, 0x00, 0x00, 0x00, 0x11, 0x03]) tcpBuilder) = some (.error (.lengthMismatch 0x0000)) ∧
    outcomeOf (exec (.decodeTcpReq [0x00, 0x01, 0x00, 0x00, 0x00, 0x01, 0x11, 0x07]) tcpBuilder) = some (.error (.invalidFunctionCode 0x07)) ∧
    outcomeOf (exec (.decodeTcpReq [0x00, 0x01, 0x00, 0x00, 0x00, 0x05, 0x11, 0x03, 0x00, 0x6B, 0x00]) tcpBuilder) = some (.error (.lengthMismatch 0x0005)) ∧
    outcomeOf (exec (.decodeTcpReq [0x00, 0x01, 0x00, 0x00, 0x00, 0x07, 0x11, 0x03, 0x00, 0x6B, 0x00, 0x03, 0x00]) tcpBuilder) = some (.error (.lengthMismatch 0x0007)) ∧
    outcomeOf (exec (.decodeTcpReq [0x00, 0x01, 0x00, 0x00, 0x00, 0x03, 0x11, 0x81, 0x02]) tcpBuilder) = some (.error (.invalidFunctionCode 0x81)) ∧
    outcomeOf (exec (.decodeTcpReq [0x00, 0x01, 0x00, 0x00, 0x00, 0x06, 0x11, 0x7F, 0x00, 0x6B, 0x00, 0x03]) tcpBuilder) = some (.error (.invalidFunctionCode 0x7F)) ∧
    outcomeOf (exec (.decodeTcpReq [0x00, 0x01, 0x00, 0x00, 0x00, 0x08, 0x11, 0x0F, 0x00, 0x13, 0x00, 0x0A, 0x02, 0xCD]) tcpBuilder) = some (.error (.lengthMismatch 0x0008)) ∧
    outcomeOf (exec (.decodeTcpReq [0x00, 0x01, 0x00, 0x00, 0x00, 0x09, 0x11, 0x0F, 0x00, 0x13, 0x00, 0x0A, 0x03, 0xCD, 0x01]) tcpBuilder) = some (.error (.lengthMismatch 0x0009)) := by decide +kernel

/-- V35a, V35f, V35h, V35j, V35k. -/
theorem test_decode_tcp_rsp_frames :
    outcomeOf (exec (.decodeTcpRsp [0x00, 0x01, 0x00, 0x00, 0x00, 0x03, 0x0A, 0x81, 0x02]) tcpBuilder) = some (.frame (v3 1) 9) ∧
    outcomeOf (exec (.decodeTcpRsp [0x00, 0x01, 0x00, 0x00, 0x00, 0x03, 0x11, 0x01, 0x00]) tcpBuilder) = some (.frame (frameOf .response 1 3 0x11 .readCoils (.readRsp [])) 9) ∧
    outcomeOf (exec (.decodeTcpRsp [0x00, 0x01, 0x00, 0x00, 0x00, 0x05, 0x11, 0x04, 0x02, 0x00, 0x0A]) tcpBuilder) = some (.frame (frameOf .response 1 5 0x11 .readInputRegisters (.readRsp [0x00, 0x0A])) 11) ∧
    outcomeOf (exec (.decodeTcpRsp [0x00, 0x01, 0x00, 0x00, 0x00, 0x06, 0x11, 0x0F, 0x00, 0x13, 0x00, 0x0A]) tcpBuilder) = some (.frame (frameOf .response 1 6 0x11 .writeMultipleCoils (.writeMultiRsp 0x0013 0x000A)) 12) ∧
    outcomeOf (exec (.decodeTcpRsp [0x00, 0x01, 0x00, 0x00, 0x00, 0x06, 0x11, 0x05, 0x00, 0xAC, 0xFF, 0x00]) tcpBuilder) = some (.frame (frameOf .response 1 6 0x11 .writeSingleCoil (.writeSingle 0x00AC 0xFF00)) 12) := by decide +kernel

/-- V35c to V35e, V35g, V35i, V35l to V35n. -/
theorem test_decode_tcp_rsp_errors :
    outcomeOf (exec (.decodeTcpRsp [0x00, 0x01, 0x00, 0x00, 0x00, 0x03, 0x0A, 0x81, 0x06]) tcpBuilder) = some (.error (.unrecognizedExceptionCode 0x06)) ∧
    outcomeOf (exec (.decodeTcpRsp [0x00, 0x01, 0x00, 0x00, 0x00, 0x03, 0x0A, 0x81, 0x00]) tcpBuilder) = some (.error (.unrecognizedExceptionCode 0x00)) ∧
    outcomeOf (exec (.decodeTcpRsp [0x00, 0x01, 0x00, 0x00, 0x00, 0x04, 0x0A, 0x81, 0x02, 0x00]) tcpBuilder) = some (.error (.lengthMismatch 0x0004)) ∧
    outcomeOf (exec (.decodeTcpRsp [0x00, 0x01, 0x00, 0x00, 0x00, 0x04, 0x11, 0x01, 0x00, 0x00]) tcpBuilder) = some (.error (.lengthMismatch 0x0004)) ∧
    outcomeOf (exec (.decodeTcpRsp [0x00, 0x01, 0x00, 0x00, 0x00, 0x05, 0x11, 0x04, 0x03, 0x00, 0x0A]) tcpBuilder) = some (.error (.lengthMismatch 0x0005)) ∧
    outcomeOf (exec (.decodeTcpRsp [0x00, 0x01, 0x00, 0x00, 0x00, 0x02, 0x11, 0x01]) tcpBuilder) = some (.error (.lengthMismatch 0x0002)) ∧
    outcomeOf (exec (.decodeTcpRsp [0x00, 0x01, 0x00, 0x00, 0x00, 0x03, 0x0A, 0x8A, 0x02]) tcpBuilder) = some (.error (.invalidFunctionCode 0x8A)) ∧
    outcomeOf (exec (.decodeTcpRsp [0x00, 0x01, 0x00, 0x00, 0x00, 0x03, 0x0A, 0x80, 0x02]) tcpBuilder) = some (.error (.invalidFunctionCode 0x80)) := by decide +kernel

/-- V36a, V36i to V36l. -/
theorem test_decode_rtu_req_frames :
    outcomeOf (exec (.decodeRtuReq [0x0B, 0x01, 0x00, 0x1D, 0x00, 0x1F, 0xED, 0x6E]) tcpBuilder) = some (.frame (frameOf .request 0 6 0x0B .readCoils (.readReq 0x001D 0x001F)) 8) ∧
    outcomeOf (exec (.decodeRtuReq [0x11, 0x0F, 0x00, 0x13, 0x00, 0x0A, 0x02, 0xCD, 0x01, 0xBF, 0x0B]) tcpBuilder) = some (.frame (frameOf .request 0 9 0x11 .writeMultipleCoils (.writeMultiReq 0x0013 0x000A [0xCD, 0x01])) 11) ∧
    outcomeOf (exec (.decodeRtuReq [0x01, 0x10, 0x00, 0x01, 0x00, 0x00, 0x00, 0x08, 0xAC]) tcpBuilder) = some (.frame (frameOf .request 0 7 0x01 .writeMultipleHoldingRegisters (.writeMultiReq 0x0001 0x0000 [])) 9) ∧
    outcomeOf (exec (.decodeRtuReq [0x11, 0x06, 0x00, 0x01, 0x00, 0x03, 0x9A, 0x9B]) tcpBuilder) = some (.frame (frameOf .request 0 6 0x11 .writeSingleHoldingRegister (.writeSingle 0x0001 0x0003)) 8) ∧
    outcomeOf (exec (.decodeRtuReq [0x11, 0x03, 0x00, 0x6B, 0x00, 0x03, 0x76, 0x87]) tcpBuilder) = some (.frame (frameOf .request 0 6 0x11 .readMultipleHoldingRegisters (.readReq 0x006B 0x0003)) 8) := by decide +kernel

/-- V36b to V36h. -/
theorem test_decode_rtu_req_errors :
    outcomeOf (exec (.decodeRtuReq [0x0B, 0x01, 0x00, 0x1D, 0x00, 0x1F, 0x6E, 0xED]) tcpBuilder) = some (.error (.invalidChecksum 0xED6E)) ∧
    outcomeOf (exec (.decodeRtuReq [0x0B, 0x01, 0x00, 0x1D, 0x00, 0x1F, 0xED]) tcpBuilder) = some .incomplete ∧
    outcomeOf (exec (.decodeRtuReq [0x0B]) tcpBuilder) = some .incomplete ∧
    outcomeOf (exec (.decodeRtuReq [0x0B, 0x07]) tcpBuilder) = some (.error (.invalidFunctionCode 0x07)) ∧
    outcomeOf (exec (.decodeRtuReq [0x0B, 0x81]) tcpBuilder) = some (.error (.invalidFunctionCode 0x81)) ∧
    outcomeOf (exec (.decodeRtuReq [0x11, 0x0F, 0x00, 0x13, 0x00, 0x0A]) tcpBuilder) = some .incomplete ∧
    outcomeOf (exec (.decodeRtuReq [0x11, 0x0F, 0x00, 0x13, 0x00, 0x0A, 0x02, 0xCD, 0x01, 0xBF]) tcpBuilder) = some .incomplete := by decide +kernel

/-- V37b, V37d, V37g, V37j to V37l. -/
theorem test_decode_rtu_rsp_frames :
    outcomeOf (exec (.decodeRtuRsp [0x0A, 0x81, 0x02, 0xB0, 0x53]) tcpBuilder) = some (.frame (v3 0) 5) ∧
    outcomeOf (exec (.decodeRtuRsp [0x0A, 0x81, 0x02, 0xB0, 0x53, 0x11]) tcpBuilder) = some (.frame (v3 0) 5) ∧
    outcomeOf (exec (.decodeRtuRsp [0x11, 0x01, 0x00, 0x20, 0x55]) tcpBuilder) = some (.frame (frameOf .response 0 3 0x11 .readCoils (.readRsp [])) 5) ∧
    outcomeOf (exec (.decodeRtuRsp [0x11, 0x01, 0x03, 0xCD, 0x6B, 0x05, 0x40, 0x12]) tcpBuilder) = some (.frame (frameOf .response 0 6 0x11 .readCoils (.readRsp [0xCD, 0x6B, 0x05])) 8) ∧
    outcomeOf (exec (.decodeRtuRsp [0x11, 0x10, 0x00, 0x01, 0x00, 0x02, 0x12, 0x98]) tcpBuilder) = some (.frame (frameOf .response 0 6 0x11 .writeMultipleHoldingRegisters (.writeMultiRsp 0x0001 0x0002)) 8) ∧
    outcomeOf (exec (.decodeRtuRsp [0x11, 0x05, 0x00, 0xAC, 0xFF, 0x00, 0x4E, 0x8B]) tcpBuilder) = some (.frame (frameOf .response 0 6 0x11 .writeSingleCoil (.writeSingle 0x00AC 0xFF00)) 8) := by decide +kernel

/-- V37a, V37c, V37e, V37m, V38a, V38c, V38d. -/
theorem test_decode_rtu_rsp_errors :
    outcomeOf (exec (.decodeRtuRsp [0x0B, 0x01, 0x00, 0x1D, 0x00, 0x1F, 0xED, 0x6E]) tcpBuilder) = some (.error (.invalidChecksum 0x001D)) ∧
    outcomeOf (exec (.decodeRtuRsp [0x0A, 0x81, 0x02, 0xB0, 0x54]) tcpBuilder) = some (.error (.invalidChecksum 0x54B0)) ∧
    outcomeOf (exec (.decodeRtuRsp [0x11, 0x01]) tcpBuilder) = some .incomplete ∧
    outcomeOf (exec (.decodeRtuRsp [0xFF, 0x0A, 0x81, 0x02, 0xB0, 0x53]) tcpBuilder) = some (.error (.invalidFunctionCode 0x0A)) ∧
    outcomeOf (exec (.decodeRtuRsp [0x0A, 0x81, 0x00, 0x31, 0x92]) tcpBuilder) = some (.error (.unrecognizedExceptionCode 0x00)) ∧
    outcomeOf (exec (.decodeRtuRsp [0x0A, 0x81, 0xFF, 0x71, 0xD2]) tcpBuilder) = some (.error (.unrecognizedExceptionCode 0xFF)) ∧
    outcomeOf (exec (.decodeRtuRsp [0x0A, 0x81, 0x06, 0x00, 0x00]) tcpBuilder) = some (.error (.invalidChecksum 0x0000)) := by decide +kernel

/-! ## Receive streams -/

/-- V49. -/
theorem test_rx_push_v49 :
    bufferOf (exec (.rxPush 0 [0x02]) (small .rtu .rtu .rsp [0x0A, 0x81])) = some [0x0A, 0x81, 0x02] := by decide +kernel

/-- V59, V61. -/
theorem test_rx_push_refusals :
    refusalOf (exec (.rxPush 0 []) (small .rtu .rtu .rsp [0x0A, 0x81])) = some .operandOutOfRange ∧
    refusalOf (exec (.rxPush 0 (List.replicate 9 0)) { small .rtu .rtu .rsp (List.replicate 260 0) with rxCapacity := some 268 }) =
      some .bufferOverflow := by decide +kernel

/-- V50 to V52. -/
theorem test_rx_decode_v50 :
    outcomeOf (exec (.rxDecode 0) (small .rtu .rtu .rsp [0x0A, 0x81, 0x02, 0xB0, 0x53, 0x11])) = some (.frame (v3 0) 5) ∧
    bufferOf (exec (.rxDecode 0) (small .rtu .rtu .rsp [0x0A, 0x81, 0x02, 0xB0, 0x53, 0x11])) = some [0x11] ∧
    bufferOf (exec (.rxDecode 0) (small .rtu .rtu .rsp [0x11])) = some [0x11] ∧
    bufferOf (exec (.rxDecode 0) (small .rtu .rtu .rsp [0xFF, 0x0A, 0x81, 0x02, 0xB0, 0x53])) = some [0xFF, 0x0A, 0x81, 0x02, 0xB0, 0x53] := by decide +kernel

/-- V55, V60. -/
theorem test_rx_decode_quirk_and_owner :
    outcomeOf (exec (.rxDecode 0) { small .tcp .tcp .rsp [0x00, 0x01, 0x00, 0x00, 0x00, 0x03, 0x0A, 0x81, 0x01] with refExcQuirk := true }) =
      some (.frame { v3 1 with body := .exceptionRsp .illegalDataValue } 9) ∧
    refusalOf (exec (.rxDecode 0) { small .rtu .rtu .rsp [0x0A, 0x81] with issuer := 1 }) = some .notOwner := by decide +kernel

/-- V53, V58. -/
theorem test_rx_discard :
    bufferOf (exec (.rxDiscard 0 1) (small .rtu .rtu .rsp [0xFF, 0x0A, 0x81, 0x02, 0xB0, 0x53])) = some [0x0A, 0x81, 0x02, 0xB0, 0x53] ∧
    refusalOf (exec (.rxDiscard 0 3) (small .rtu .rtu .rsp [0x0A, 0x81])) = some .discardPastEnd := by decide +kernel

/-- V62. -/
theorem test_rx_flush_v62 :
    bufferOf (exec (.rxFlush 0) (small .rtu .rtu .rsp [0x0A, 0x81])) = some [] := by decide +kernel

/-- V54, V56, V57. -/
theorem test_rx_status :
    resultOf (exec (.rxStatus 0) (small .rtu .rtu .req [0x11, 0x0F, 0x00, 0x13, 0x00, 0x0A])) = some (.status 6 .awaitCount) ∧
    resultOf (exec (.rxStatus 0) (small .tcp .tcp .req [0x00, 0x01, 0x00, 0x00, 0xFF, 0xFF, 0x11, 0x03, 0x00, 0x6B, 0x00, 0x03])) = some (.status 12 .awaitBody) ∧
    resultOf (exec (.rxStatus 0) (small .tcp .tcp .req [0x00, 0x01, 0x00, 0x00, 0x00, 0x01, 0x11, 0x03])) = some (.status 8 .error) := by decide +kernel

/-- V45 to V48. -/
theorem test_phase_traces :
    (List.range 12).map (fun k => (phase false .rtu .req (([0x11, 0x0F, 0x00, 0x13, 0x00, 0x0A, 0x02, 0xCD, 0x01, 0xBF, 0x0B] : Bytes).take k)).code) = [0, 0, 1, 1, 1, 1, 1, 2, 2, 3, 3, 4] ∧
    (List.range 9).map (fun k => (phase false .rtu .rsp (([0x11, 0x01, 0x03, 0xCD, 0x6B, 0x05, 0x40, 0x12] : Bytes).take k)).code) = [0, 0, 1, 2, 2, 2, 3, 3, 4] ∧
    (List.range 10).map (fun k => (phase false .tcp .rsp (([0x00, 0x01, 0x00, 0x00, 0x00, 0x03, 0x0A, 0x81, 0x02] : Bytes).take k)).code) = [0, 0, 0, 0, 0, 0, 0, 0, 2, 4] ∧
    (List.range 6).map (fun k => (phase false .rtu .rsp (([0x0A, 0x81, 0x02, 0xB0, 0x53] : Bytes).take k)).code) = [0, 0, 2, 3, 3, 4] := by decide +kernel

/-- V63. -/
theorem test_reset_v63 :
    bufferOf (exec .reset (lastIs (small .rtu .rtu .rsp [0x0A, 0x81]) 0x01 3)) = some [] ∧
    lastIdOf 0x01 (exec .reset (lastIs (small .rtu .rtu .rsp [0x0A, 0x81]) 0x01 3)) = some 0 := by decide +kernel

/-! ## Wire rows: function, body shape and RTU length as the opcode table gives them -/

/-- R62, R75: the 8 request function bytes. -/
theorem test_wire_req_rows :
    resultOf (step { tcpBuilder with pending := [fnIssue 0 .req 0b00000001 []] }) =
      some (.lookup .readCoils false .readReq (some 4)) ∧
    resultOf (step { tcpBuilder with pending := [fnIssue 0 .req 0b00000010 []] }) =
      some (.lookup .readDiscreteInputs false .readReq (some 4)) ∧
    resultOf (step { tcpBuilder with pending := [fnIssue 0 .req 0b00000011 []] }) =
      some (.lookup .readMultipleHoldingRegisters false .readReq (some 4)) ∧
    resultOf (step { tcpBuilder with pending := [fnIssue 0 .req 0b00000100 []] }) =
      some (.lookup .readInputRegisters false .readReq (some 4)) ∧
    resultOf (step { tcpBuilder with pending := [fnIssue 0 .req 0b00000101 []] }) =
      some (.lookup .writeSingleCoil false .writeSingle (some 4)) ∧
    resultOf (step { tcpBuilder with pending := [fnIssue 0 .req 0b00000110 []] }) =
      some (.lookup .writeSingleHoldingRegister false .writeSingle (some 4)) ∧
    resultOf (step { tcpBuilder with pending := [fnIssue 0 .req 0b00001111 [0x00, 0x13, 0x00, 0x0A, 0x02]] }) =
      some (.lookup .writeMultipleCoils false .writeMultiReq (some 7)) ∧
    resultOf (step { tcpBuilder with pending := [fnIssue 0 .req 0b00010000 [0x00, 0x13, 0x00, 0x0A, 0x02]] }) =
      some (.lookup .writeMultipleHoldingRegisters false .writeMultiReq (some 7)) := by decide +kernel

/-- R62, R76: the 8 response function bytes. -/
theorem test_wire_rsp_rows :
    resultOf (step { tcpBuilder with pending := [fnIssue 0 .rsp 0b00000001 [0x03]] }) =
      some (.lookup .readCoils false .readRsp (some 4)) ∧
    resultOf (step { tcpBuilder with pending := [fnIssue 0 .rsp 0b00000010 [0x03]] }) =
      some (.lookup .readDiscreteInputs false .readRsp (some 4)) ∧
    resultOf (step { tcpBuilder with pending := [fnIssue 0 .rsp 0b00000011 [0x03]] }) =
      some (.lookup .readMultipleHoldingRegisters false .readRsp (some 4)) ∧
    resultOf (step { tcpBuilder with pending := [fnIssue 0 .rsp 0b00000100 [0x03]] }) =
      some (.lookup .readInputRegisters false .readRsp (some 4)) ∧
    resultOf (step { tcpBuilder with pending := [fnIssue 0 .rsp 0b00000101 []] }) =
      some (.lookup .writeSingleCoil false .writeSingle (some 4)) ∧
    resultOf (step { tcpBuilder with pending := [fnIssue 0 .rsp 0b00000110 []] }) =
      some (.lookup .writeSingleHoldingRegister false .writeSingle (some 4)) ∧
    resultOf (step { tcpBuilder with pending := [fnIssue 0 .rsp 0b00001111 []] }) =
      some (.lookup .writeMultipleCoils false .writeMultiRsp (some 4)) ∧
    resultOf (step { tcpBuilder with pending := [fnIssue 0 .rsp 0b00010000 []] }) =
      some (.lookup .writeMultipleHoldingRegisters false .writeMultiRsp (some 4)) := by decide +kernel

/-- R63, R76: the 8 exception function bytes. -/
theorem test_wire_rsp_exception_rows :
    resultOf (step { tcpBuilder with pending := [fnIssue 0 .rsp 0b10000001 []] }) =
      some (.lookup .readCoils true .exceptionRsp (some 1)) ∧
    resultOf (step { tcpBuilder with pending := [fnIssue 0 .rsp 0b10000010 []] }) =
      some (.lookup .readDiscreteInputs true .exceptionRsp (some 1)) ∧
    resultOf (step { tcpBuilder with pending := [fnIssue 0 .rsp 0b10000011 []] }) =
      some (.lookup .readMultipleHoldingRegisters true .exceptionRsp (some 1)) ∧
    resultOf (step { tcpBuilder with pending := [fnIssue 0 .rsp 0b10000100 []] }) =
      some (.lookup .readInputRegisters true .exceptionRsp (some 1)) ∧
    resultOf (step { tcpBuilder with pending := [fnIssue 0 .rsp 0b10000101 []] }) =
      some (.lookup .writeSingleCoil true .exceptionRsp (some 1)) ∧
    resultOf (step { tcpBuilder with pending := [fnIssue 0 .rsp 0b10000110 []] }) =
      some (.lookup .writeSingleHoldingRegister true .exceptionRsp (some 1)) ∧
    resultOf (step { tcpBuilder with pending := [fnIssue 0 .rsp 0b10001111 []] }) =
      some (.lookup .writeMultipleCoils true .exceptionRsp (some 1)) ∧
    resultOf (step { tcpBuilder with pending := [fnIssue 0 .rsp 0b10010000 []] }) =
      some (.lookup .writeMultipleHoldingRegisters true .exceptionRsp (some 1)) := by decide +kernel

/-- R64: the 5 exception codes. -/
theorem test_wire_exception_code_rows :
    resultOf (step { tcpBuilder with pending := [excIssue 0 0b00000001] }) = some (.exception .illegalFunction) ∧
    resultOf (step { tcpBuilder with pending := [excIssue 0 0b00000010] }) = some (.exception .illegalDataAddress) ∧
    resultOf (step { tcpBuilder with pending := [excIssue 0 0b00000011] }) = some (.exception .illegalDataValue) ∧
    resultOf (step { tcpBuilder with pending := [excIssue 0 0b00000100] }) = some (.exception .slaveDeviceFailure) ∧
    resultOf (step { tcpBuilder with pending := [excIssue 0 0b00000101] }) = some (.exception .acknowledge) := by decide +kernel

/-- R77: NEED. -/
theorem test_wire_count_byte_missing :
    resultOf (exec (.wireReqWriteMultipleCoils [0x00, 0x13, 0x00, 0x0A]) tcpBuilder) =
      some (.lookup .writeMultipleCoils false .writeMultiReq none) ∧
    resultOf (exec (.wireRspReadCoils []) tcpBuilder) = some (.lookup .readCoils false .readRsp none) := by decide +kernel

/-- R64: the quirk. -/
theorem test_wire_quirk :
    resultOf (exec .wireExceptionCodeIllegalFunction { tcpBuilder with refExcQuirk := true }) = some (.exception .illegalDataValue) := by decide +kernel

/-! ## Decoding: every operation, its code written out bit by bit (R90), with operands that differ -/

/-- 0x01, 0x02. -/
theorem test_decode_crc_operations :
    decode { agent := 3, port := .operation, code := 0b00000001, operands := [.bytes [0x0A, 0x81]] } = .ok (.crcCompute [0x0A, 0x81]) ∧
    decode { agent := 3, port := .operation, code := 0b00000010, operands := [.bytes [0x0A, 0x81], .num 0x53B0] } = .ok (.crcCheck [0x0A, 0x81] 0x53B0) := by
  refine ⟨?_, ?_⟩ <;> rfl

/-- 0x10 to 0x17. -/
theorem test_decode_request_builders :
    decode { agent := 3, port := .operation, code := 0b00010000, operands := [.num 2, .num 0x11, .num 0x0013, .num 0x0125] } = .ok (.buildReqReadCoils 2 0x11 0x0013 0x0125) ∧
    decode { agent := 3, port := .operation, code := 0b00010001, operands := [.num 2, .num 0x11, .num 0x0013, .num 0x0125] } = .ok (.buildReqReadDiscreteInputs 2 0x11 0x0013 0x0125) ∧
    decode { agent := 3, port := .operation, code := 0b00010010, operands := [.num 2, .num 0x11, .num 0x0013, .num 0x0125] } = .ok (.buildReqReadHoldingRegisters 2 0x11 0x0013 0x0125) ∧
    decode { agent := 3, port := .operation, code := 0b00010011, operands := [.num 2, .num 0x11, .num 0x0013, .num 0x0125] } = .ok (.buildReqReadInputRegisters 2 0x11 0x0013 0x0125) ∧
    decode { agent := 3, port := .operation, code := 0b00010100, operands := [.num 2, .num 0x11, .num 0x0013, .num 0x0125] } = .ok (.buildReqWriteSingleCoil 2 0x11 0x0013 0x0125) ∧
    decode { agent := 3, port := .operation, code := 0b00010101, operands := [.num 2, .num 0x11, .num 0x0013, .num 0x0125] } = .ok (.buildReqWriteSingleRegister 2 0x11 0x0013 0x0125) ∧
    decode { agent := 3, port := .operation, code := 0b00010110, operands := [.num 2, .num 0x11, .num 0x0013, .num 0x0125, .bytes [0x4D, 0x01]] } = .ok (.buildReqWriteMultipleCoils 2 0x11 0x0013 0x0125 [0x4D, 0x01]) ∧
    decode { agent := 3, port := .operation, code := 0b00010111, operands := [.num 2, .num 0x11, .num 0x0013, .num 0x0125, .bytes [0x4D, 0x01]] } = .ok (.buildReqWriteMultipleRegisters 2 0x11 0x0013 0x0125 [0x4D, 0x01]) := by
  refine ⟨?_, ?_, ?_, ?_, ?_, ?_, ?_, ?_⟩ <;> rfl

/-- 0x18 to 0x20. -/
theorem test_decode_response_builders :
    decode { agent := 3, port := .operation, code := 0b00011000, operands := [.num 2, .num 0x11, .bytes [0xCD, 0x6B]] } = .ok (.buildRspReadCoils 2 0x11 [0xCD, 0x6B]) ∧
    decode { agent := 3, port := .operation, code := 0b00011001, operands := [.num 2, .num 0x11, .bytes [0xCD, 0x6B]] } = .ok (.buildRspReadDiscreteInputs 2 0x11 [0xCD, 0x6B]) ∧
    decode { agent := 3, port := .operation, code := 0b00011010, operands := [.num 2, .num 0x11, .bytes [0xCD, 0x6B]] } = .ok (.buildRspReadHoldingRegisters 2 0x11 [0xCD, 0x6B]) ∧
    decode { agent := 3, port := .operation, code := 0b00011011, operands := [.num 2, .num 0x11, .bytes [0xCD, 0x6B]] } = .ok (.buildRspReadInputRegisters 2 0x11 [0xCD, 0x6B]) ∧
    decode { agent := 3, port := .operation, code := 0b00011100, operands := [.num 2, .num 0x11, .num 0x0013, .num 0x0125] } = .ok (.buildRspWriteSingleCoil 2 0x11 0x0013 0x0125) ∧
    decode { agent := 3, port := .operation, code := 0b00011101, operands := [.num 2, .num 0x11, .num 0x0013, .num 0x0125] } = .ok (.buildRspWriteSingleRegister 2 0x11 0x0013 0x0125) ∧
    decode { agent := 3, port := .operation, code := 0b00011110, operands := [.num 2, .num 0x11, .num 0x0013, .num 0x0125] } = .ok (.buildRspWriteMultipleCoils 2 0x11 0x0013 0x0125) ∧
    decode { agent := 3, port := .operation, code := 0b00011111, operands := [.num 2, .num 0x11, .num 0x0013, .num 0x0125] } = .ok (.buildRspWriteMultipleRegisters 2 0x11 0x0013 0x0125) ∧
    decode { agent := 3, port := .operation, code := 0b00100000, operands := [.num 2, .num 0x0A, .num 6, .num 3] } = .ok (.buildException 2 0x0A .writeMultipleCoils .slaveDeviceFailure) := by
  refine ⟨?_, ?_, ?_, ?_, ?_, ?_, ?_, ?_, ?_⟩ <;> rfl

/-- 0x30, 0x31, 0x40 to 0x43. -/
theorem test_decode_codec_operations :
    decode { agent := 3, port := .operation, code := 0b00110000, operands := [.frame (v3 1)] } = .ok (.encodeTcp (v3 1)) ∧
    decode { agent := 3, port := .operation, code := 0b00110001, operands := [.frame (v3 1)] } = .ok (.encodeRtu (v3 1)) ∧
    decode { agent := 3, port := .operation, code := 0b01000000, operands := [.bytes [0x0B, 0x81]] } = .ok (.decodeTcpReq [0x0B, 0x81]) ∧
    decode { agent := 3, port := .operation, code := 0b01000001, operands := [.bytes [0x0B, 0x81]] } = .ok (.decodeTcpRsp [0x0B, 0x81]) ∧
    decode { agent := 3, port := .operation, code := 0b01000010, operands := [.bytes [0x0B, 0x81]] } = .ok (.decodeRtuReq [0x0B, 0x81]) ∧
    decode { agent := 3, port := .operation, code := 0b01000011, operands := [.bytes [0x0B, 0x81]] } = .ok (.decodeRtuRsp [0x0B, 0x81]) := by
  refine ⟨?_, ?_, ?_, ?_, ?_, ?_⟩ <;> rfl

/-- 0x50 to 0x54, 0x60. -/
theorem test_decode_stream_operations :
    decode { agent := 3, port := .operation, code := 0b01010000, operands := [.num 2, .bytes [0x0A]] } = .ok (.rxPush 2 [0x0A]) ∧
    decode { agent := 3, port := .operation, code := 0b01010001, operands := [.num 2] } = .ok (.rxDecode 2) ∧
    decode { agent := 3, port := .operation, code := 0b01010010, operands := [.num 2, .num 7] } = .ok (.rxDiscard 2 7) ∧
    decode { agent := 3, port := .operation, code := 0b01010011, operands := [.num 2] } = .ok (.rxFlush 2) ∧
    decode { agent := 3, port := .operation, code := 0b01010100, operands := [.num 2] } = .ok (.rxStatus 2) ∧
    decode { agent := 3, port := .operation, code := 0b01100000, operands := [] } = .ok (.reset) := by
  refine ⟨?_, ?_, ?_, ?_, ?_, ?_⟩ <;> rfl

/-- R62: request function bytes, `encoding` of the opcode table. -/
theorem test_decode_wire_req :
    decode (fnIssue 3 .req 0b00000001 [0x02]) = .ok (.wireReqReadCoils [0x02]) ∧
    decode (fnIssue 3 .req 0b00000010 [0x02]) = .ok (.wireReqReadDiscreteInputs [0x02]) ∧
    decode (fnIssue 3 .req 0b00000011 [0x02]) = .ok (.wireReqReadMultipleHoldingRegisters [0x02]) ∧
    decode (fnIssue 3 .req 0b00000100 [0x02]) = .ok (.wireReqReadInputRegisters [0x02]) ∧
    decode (fnIssue 3 .req 0b00000101 [0x02]) = .ok (.wireReqWriteSingleCoil [0x02]) ∧
    decode (fnIssue 3 .req 0b00000110 [0x02]) = .ok (.wireReqWriteSingleHoldingRegister [0x02]) ∧
    decode (fnIssue 3 .req 0b00001111 [0x02]) = .ok (.wireReqWriteMultipleCoils [0x02]) ∧
    decode (fnIssue 3 .req 0b00010000 [0x02]) = .ok (.wireReqWriteMultipleHoldingRegisters [0x02]) := by
  refine ⟨?_, ?_, ?_, ?_, ?_, ?_, ?_, ?_⟩ <;> rfl

/-- R62: response function bytes. -/
theorem test_decode_wire_rsp :
    decode (fnIssue 3 .rsp 0b00000001 [0x02]) = .ok (.wireRspReadCoils [0x02]) ∧
    decode (fnIssue 3 .rsp 0b00000010 [0x02]) = .ok (.wireRspReadDiscreteInputs [0x02]) ∧
    decode (fnIssue 3 .rsp 0b00000011 [0x02]) = .ok (.wireRspReadMultipleHoldingRegisters [0x02]) ∧
    decode (fnIssue 3 .rsp 0b00000100 [0x02]) = .ok (.wireRspReadInputRegisters [0x02]) ∧
    decode (fnIssue 3 .rsp 0b00000101 [0x02]) = .ok (.wireRspWriteSingleCoil [0x02]) ∧
    decode (fnIssue 3 .rsp 0b00000110 [0x02]) = .ok (.wireRspWriteSingleHoldingRegister [0x02]) ∧
    decode (fnIssue 3 .rsp 0b00001111 [0x02]) = .ok (.wireRspWriteMultipleCoils [0x02]) ∧
    decode (fnIssue 3 .rsp 0b00010000 [0x02]) = .ok (.wireRspWriteMultipleHoldingRegisters [0x02]) := by
  refine ⟨?_, ?_, ?_, ?_, ?_, ?_, ?_, ?_⟩ <;> rfl

/-- R63: exception function bytes. -/
theorem test_decode_wire_rsp_exception :
    decode (fnIssue 3 .rsp 0b10000001 [0x02]) = .ok (.wireRspExceptionReadCoils [0x02]) ∧
    decode (fnIssue 3 .rsp 0b10000010 [0x02]) = .ok (.wireRspExceptionReadDiscreteInputs [0x02]) ∧
    decode (fnIssue 3 .rsp 0b10000011 [0x02]) = .ok (.wireRspExceptionReadMultipleHoldingRegisters [0x02]) ∧
    decode (fnIssue 3 .rsp 0b10000100 [0x02]) = .ok (.wireRspExceptionReadInputRegisters [0x02]) ∧
    decode (fnIssue 3 .rsp 0b10000101 [0x02]) = .ok (.wireRspExceptionWriteSingleCoil [0x02]) ∧
    decode (fnIssue 3 .rsp 0b10000110 [0x02]) = .ok (.wireRspExceptionWriteSingleHoldingRegister [0x02]) ∧
    decode (fnIssue 3 .rsp 0b10001111 [0x02]) = .ok (.wireRspExceptionWriteMultipleCoils [0x02]) ∧
    decode (fnIssue 3 .rsp 0b10010000 [0x02]) = .ok (.wireRspExceptionWriteMultipleHoldingRegisters [0x02]) := by
  refine ⟨?_, ?_, ?_, ?_, ?_, ?_, ?_, ?_⟩ <;> rfl

/-- R64: exception codes. -/
theorem test_decode_wire_exception_codes :
    decode (excIssue 3 0b00000001) = .ok .wireExceptionCodeIllegalFunction ∧
    decode (excIssue 3 0b00000010) = .ok .wireExceptionCodeIllegalDataAddress ∧
    decode (excIssue 3 0b00000011) = .ok .wireExceptionCodeIllegalDataValue ∧
    decode (excIssue 3 0b00000100) = .ok .wireExceptionCodeSlaveDeviceFailure ∧
    decode (excIssue 3 0b00000101) = .ok .wireExceptionCodeAcknowledge := by
  refine ⟨?_, ?_, ?_, ?_, ?_⟩ <;> rfl

/-- V65, R65, R66, R91. -/
theorem test_decode_rejects :
    decode { agent := 0, port := .operation, code := 0x07, operands := [] } = .error .unknownOperation ∧
    decode { agent := 0, port := .operation, code := 0x10, operands := [.num 0, .num 256, .num 0, .num 0] } = .error .operandOutOfRange ∧
    decode { agent := 0, port := .operation, code := 0x51, operands := [] } = .error .operandOutOfRange ∧
    decode (fnIssue 0 .req 0x81 []) = .error (.wireError (.invalidFunctionCode 0x81)) ∧
    decode (fnIssue 0 .rsp 0x07 []) = .error (.wireError (.invalidFunctionCode 0x07)) ∧
    decode (excIssue 0 0x06) = .error (.wireError (.unrecognizedExceptionCode 0x06)) := by
  refine ⟨?_, ?_, ?_, ?_, ?_, ?_⟩ <;> rfl

/-- A row's word placed by withFetchWord runs as the next step. -/
theorem test_table_word_runs_after_reset :
    resultOf (step (State.reset.withFetchWord 8 0x01)) = some (.word 0xFFFF) ∧
    resultOf (step (State.reset.withFetchWord 8 0x50)) = some .unit ∧
    resultOf (step (State.reset.withFetchWord 8 0x03)) = some (.lookup .readMultipleHoldingRegisters false .readReq (some 4)) := by decide +kernel

/-! ## WellFormed: one ill-formed term for each check, refused -/

/-- R8. -/
theorem test_wf_config :
    Config.wf Config.default = true ∧
    Config.wf { Config.default with modes := [] } = false ∧
    Config.wf { Config.default with streams := [] } = false ∧
    Config.wf { Config.default with rxCapacity := some 267 } = false ∧
    Config.wf { Config.default with rxCapacity := some 268 } = true := by decide

/-- R91. -/
theorem test_wf_builder_index :
    Instr.wf Config.default (.buildReqReadCoils 0 0 0 0) = true ∧
    Instr.wf Config.default (.buildReqReadCoils 1 0 0 0) = false ∧
    Instr.wf Config.default (.buildException 1 0 .readCoils .acknowledge) = false := by decide

/-- R113. -/
theorem test_wf_values :
    Instr.wf Config.default (.buildRspReadCoils 0 0 (List.replicate 255 0)) = true ∧
    Instr.wf Config.default (.buildRspReadCoils 0 0 (List.replicate 256 0)) = false ∧
    Instr.wf Config.default (.buildReqWriteMultipleRegisters 0 0 0 0 (List.replicate 256 0)) = false := by decide +kernel

/-- R91, R180. -/
theorem test_wf_stream_index :
    Instr.wf Config.default (.rxDecode 0) = true ∧
    Instr.wf Config.default (.rxDecode 1) = false ∧
    Instr.wf Config.default (.rxPush 0 []) = false := by decide

/-- R32 (a), (a) and (b), (c), (d). -/
theorem test_wf_frame :
    Instr.wf Config.default (.encodeTcp (v3 1)) = true ∧
    Instr.wf Config.default (.encodeTcp { v3 1 with body := .readRsp [0x02] }) = false ∧
    Instr.wf Config.default (.encodeTcp { v3 1 with kind := .request }) = false ∧
    Instr.wf Config.default (.encodeRtu (frameOf .response 0 259 0 .readCoils (.readRsp (List.replicate 256 0)))) = false ∧
    Instr.wf Config.default (.encodeRtu (frameOf .request 0 7 0 .readCoils (.readReq 0 1))) = false := by decide +kernel

/-! ## Witnesses: states and operands that meet the hypotheses of each statement that has some -/

/-- A state with one issue pending. -/
def issued (i : Issue) : State := { tcpBuilder with pending := [i] }

/-- A request of the longest body: 255 values. -/
def longest : Frame := frameOf .request 1 262 0x01 .writeMultipleCoils (.writeMultiReq 0 0 (List.replicate 255 0xAA))

/-- An exception response that carries IllegalFunction, the value the quirk loses. -/
def lost : Frame := { v3 1 with body := .exceptionRsp .illegalFunction }

theorem witness_StepExecutesTheIssueAtTheHead :
    tcpBuilder.pending = [] ∧ (issued (opIssue 0 0x60 [])).pending = [opIssue 0 0x60 []] ∧
    decode (opIssue 0 0x60 []) = .ok .reset ∧ decode (opIssue 0 0x07 []) = .error .unknownOperation ∧
    decode (opIssue 0 0x60 [.num 0]) = .error .operandOutOfRange ∧
    decode (fnIssue 0 .req 0x81 []) = .error (.wireError (.invalidFunctionCode 0x81)) :=
  ⟨rfl, rfl, rfl, rfl, rfl, rfl⟩

theorem witness_ReservedOperationCodesAreRefused :
    (∀ c ∈ [0x00, 0x03, 0x0F, 0x21, 0x2F, 0x32, 0x3F, 0x44, 0x4F, 0x55, 0x5F, 0x61, 0xFF],
      (issued (opIssue 0 c [])).pending = [opIssue 0 c []] ∧ c ∉ operationCodes) ∧
    (∀ c ∈ [0x01, 0x02, 0x10, 0x20, 0x30, 0x31, 0x40, 0x43, 0x50, 0x54, 0x60],
      (issued (opIssue 0 c [])).pending = [opIssue 0 c []] ∧ c ∈ operationCodes) := by decide

theorem witness_OperandsOutsideTheirTypeAreRefused :
    (0x10 : Byte) ∈ [0x10, 0x11, 0x12, 0x13, 0x14, 0x15, 0x1C, 0x1D, 0x1E, 0x1F] ∧
    (issued (opIssue 0 0x10 [.num 0, .num 256, .num 0, .num 0])).pending = [opIssue 0 0x10 [.num 0, .num 256, .num 0, .num 0]] ∧
    (issued (opIssue 0 0x1F [.num 0, .num 0, .num 65536, .num 0])).pending = [opIssue 0 0x1F [.num 0, .num 0, .num 65536, .num 0]] ∧
    (issued (opIssue 0 0x17 [.num 0, .num 0, .num 0, .num 65536, .bytes []])).pending =
      [opIssue 0 0x17 [.num 0, .num 0, .num 0, .num 65536, .bytes []]] ∧
    (issued (opIssue 0 0x18 [.num 0, .num 256, .bytes []])).pending = [opIssue 0 0x18 [.num 0, .num 256, .bytes []]] ∧
    (issued (opIssue 0 0x20 [.num 0, .num 0, .num 8, .num 0])).pending = [opIssue 0 0x20 [.num 0, .num 0, .num 8, .num 0]] ∧
    (issued (opIssue 0 0x20 [.num 0, .num 0, .num 0, .num 5])).pending = [opIssue 0 0x20 [.num 0, .num 0, .num 0, .num 5]] ∧
    (issued (opIssue 0 0x02 [.bytes [], .num 65536])).pending = [opIssue 0 0x02 [.bytes [], .num 65536]] := by decide

theorem witness_RefusalMarkIsKept :
    (∃ r : Run, Machine.step r.state = .refused .unknownOperation) ∧ (∃ r : Run, r.mark = some .notOwner) :=
  ⟨⟨{ state := issued (opIssue 0 0x07 []), mark := none }, rfl⟩, ⟨{ state := tcpBuilder, mark := some .notOwner }, rfl⟩⟩

theorem witness_ResultsAreReturnedAndNotKept :
    (∃ t, exec (.crcCompute []) tcpBuilder = .next t) ∧ exec (.rxDecode 1) tcpBuilder = .refused .operandOutOfRange :=
  ⟨⟨_, rfl⟩, rfl⟩

/-- A duty kept, and one broken for each kind of refusal. -/
theorem witness_CompletesExactlyWhenDutiesAreKept :
    DutiesKept (.rxDiscard 0 2) (small .rtu .rtu .rsp [0x0A, 0x81]) ∧ ¬ DutiesKept (.rxDiscard 0 3) (small .rtu .rtu .rsp [0x0A, 0x81]) ∧
    ¬ DutiesKept (.rxFlush 1) tcpBuilder ∧ ¬ DutiesKept (.encodeTcp { v3 1 with kind := .request }) tcpBuilder := by
  refine ⟨⟨by decide, ?_⟩, fun h => ?_, fun h => ?_, fun h => ?_⟩
  · intro n st hn hs
    cases hn; cases hs
    exact ⟨rfl, by simp, by intro k hk; cases hk; decide⟩
  · exact absurd ((h.2 0 _ rfl rfl).2.2 3 rfl) (by decide)
  · exact absurd h.1 (by decide)
  · exact absurd h.1 (by decide)

theorem witness_ResetClearsTablesAndBuffers :
    ∃ t t' bl, exec .reset (lastIs tcpBuilder 0xFF 9) = .next t ∧ buildTarget (.buildReqReadCoils 0 0xFF 0 0) = some (0, 0xFF) ∧
      t.builders[0]? = some bl ∧ bl.mode = .tcp ∧ exec (.buildReqReadCoils 0 0xFF 0 0) t = .next t' :=
  ⟨_, _, _, rfl, rfl, rfl, rfl, rfl⟩

theorem witness_InvariantHoldsAtPowerOn :
    Config.wf Config.default = true ∧ Config.wf { Config.default with rxCapacity := some 268 } = true := by decide

theorem witness_EveryStepKeepsTheInvariant : (∃ s t : State, s.Inv ∧ step s = .next t ∧ t.results ≠ s.results) :=
  ⟨issued (opIssue 0 0x60 []), _,
    ⟨by decide, by intro st h; simp [issued, tcpBuilder, small, State.ofConfig] at h; subst h; rfl,
      by intro r h; simp [issued, tcpBuilder, small, State.ofConfig] at h⟩, rfl, by decide⟩

theorem witness_NoStepWritesTheConfiguration : ∃ s t : State, step s = .next t ∧ t ≠ s :=
  ⟨issued (opIssue 0 0x53 [.num 0]), _, rfl, fun h => absurd (congrArg (·.results.length) h) (by decide)⟩

theorem witness_OnlyBuildersReachTablesAndOnlyStreamsBuffers :
    (∃ t, exec (.rxPush 0 [0x0A]) tcpBuilder = .next t ∧ buildTarget (.rxPush 0 [0x0A]) = none) ∧
    (∃ t, exec (.buildReqReadCoils 0 0 0 0) tcpBuilder = .next t ∧ streamTarget (.buildReqReadCoils 0 0 0 0) = none) ∧
    (∃ t, exec (.crcCompute []) tcpBuilder = .next t ∧ buildTarget (.crcCompute []) = none ∧ streamTarget (.crcCompute []) = none) :=
  ⟨⟨_, rfl, rfl⟩, ⟨_, rfl, rfl⟩, ⟨_, rfl, rfl, rfl⟩⟩

theorem witness_CrcDetectsAnyChangedByte :
    ([0x0A, 0x81, 0x02] : Bytes)[0]? = some 0x0A ∧ ([0x0A, 0x81, 0x02] : Bytes)[2]? = some 0x02 ∧
    (0x0B : Byte) ≠ 0x0A ∧ (0xFF : Byte) ≠ 0x02 := by decide

/-- The first byte, the exception code and the last CRC byte of V37b. -/
theorem witness_CorruptedRtuByteRaisesInvalidChecksum :
    rtuDecode false .rsp [0x0A, 0x81, 0x02, 0xB0, 0x53] = .frame (v3 0) 5 ∧
    ∀ c ∈ [(0, (0x0B : Byte)), (2, 0x03), (4, 0x52)],
      ([0x0A, 0x81, 0x02, 0xB0, 0x53] : Bytes)[c.1]?.isSome = true ∧ ([0x0A, 0x81, 0x02, 0xB0, 0x53] : Bytes)[c.1]? ≠ some c.2 ∧
      classify .rsp (byteAt ([0x0A, 0x81, 0x02, 0xB0, 0x53].set c.1 c.2) 1) = .ok (.readCoils, true) ∧
      rtuBlen .rsp .readCoils true ([0x0A, 0x81, 0x02, 0xB0, 0x53].set c.1 c.2) =
        rtuBlen .rsp .readCoils true [0x0A, 0x81, 0x02, 0xB0, 0x53] := by
  refine ⟨by decide +kernel, ?_⟩
  intro c hc
  simp only [List.mem_cons, List.not_mem_nil, or_false] at hc
  rcases hc with rfl | rfl | rfl <;> exact ⟨by decide, by decide, by rfl, by decide⟩

/-- RequestBuildersReturnTheirFrame, ResponseBuildersReturnTheirFrame, ExceptionBuilderReturnsItsFrame: a builder that exists, in
either mode, and 0 and 255 values. -/
theorem witness_BuildersReturnTheirFrames :
    (∃ bl, tcpBuilder.builders[0]? = some bl ∧ bl.mode = .tcp) ∧
    (∃ bl, (small .rtu .rtu .rsp []).builders[0]? = some bl ∧ bl.mode = .rtu) ∧
    ([] : Bytes).length ≤ 255 ∧ (List.replicate 255 (0 : Byte)).length ≤ 255 :=
  ⟨⟨_, rfl, rfl⟩, ⟨_, rfl, rfl⟩, by decide, by rw [List.length_replicate]⟩

theorem witness_TcpAllocationRule :
    buildTarget (.buildException 0 0x07 .readCoils .acknowledge) = some (0, 0x07) ∧
    (∃ bl t, (lastIs tcpBuilder 0x07 0xFFFF).builders[0]? = some bl ∧ bl.mode = .tcp ∧ bl.tids.last 0x07 = 0xFFFF ∧
      exec (.buildException 0 0x07 .readCoils .acknowledge) (lastIs tcpBuilder 0x07 0xFFFF) = .next t) ∧
    (∃ bl t, (lastIs tcpBuilder 0x07 0xFFFE).builders[0]? = some bl ∧ bl.mode = .tcp ∧ bl.tids.last 0x07 ≠ 0xFFFF ∧
      exec (.buildException 0 0x07 .readCoils .acknowledge) (lastIs tcpBuilder 0x07 0xFFFE) = .next t) :=
  ⟨rfl, ⟨_, _, rfl, rfl, by simp [TidTable.last_record_self], rfl⟩,
    ⟨_, _, rfl, rfl, by rw [TidTable.last_record_self]; decide, rfl⟩⟩

theorem witness_RtuModeLeavesTheTableAlone :
    ∃ bl t, (small .rtu .rtu .rsp []).builders[0]? = some bl ∧ bl.mode = .rtu ∧
      buildTarget (.buildReqReadCoils 0 0x0B 0x001D 0x001F) = some (0, 0x0B) ∧
      exec (.buildReqReadCoils 0 0x0B 0x001D 0x001F) (small .rtu .rtu .rsp []) = .next t :=
  ⟨_, _, rfl, rfl, rfl, rfl⟩

/-- BuiltFramesAreWellFormed, BuildersChangeOneTableEntryOnly. -/
theorem witness_BuiltFrames :
    ∃ t, buildTarget (.buildReqReadCoils 0 0xFF 0 0) = some (0, 0xFF) ∧ exec (.buildReqReadCoils 0 0xFF 0 0) tcpBuilder = .next t :=
  ⟨_, rfl, rfl⟩

/-- Any number of builds for one unit on one builder complete, and give that many ids. -/
theorem builds_complete (n : Nat) : ∀ s : State, s.builders[0]?.isSome = true →
    ∃ t rs, execAll (List.replicate n (.buildReqReadCoils 0 0x01 0 0)) s = .next t ∧ t.results = s.results ++ rs ∧
      (idsFor 0 0x01 (List.replicate n (.buildReqReadCoils 0 0x01 0 0)) rs).length = n := by
  induction n with
  | zero => exact fun s _ => ⟨s, [], rfl, by simp, rfl⟩
  | succ n ih =>
    intro s hs
    obtain ⟨bl, hbl⟩ := Option.isSome_iff_exists.1 hs
    have hlt := (List.getElem?_eq_some_iff.1 hbl).1
    have hx : exec (.buildReqReadCoils 0 0x01 0 0) s = .next _ := mk_next.2 ⟨bl, hbl, by decide, rfl⟩
    generalize hfr : Frame.mk .request (builtHead (bl.allocate 0x01).1 0x01 .readCoils false (.readReq 0 0)) (.readReq 0 0) = fr at hx
    obtain ⟨t, rs, h1, h2, h3⟩ := ih ((s.setBuilder 0 (bl.allocate 0x01).2).post (.frame fr)) (by simp [hlt])
    refine ⟨t, .frame fr :: rs, ?_, by rw [h2]; simp, ?_⟩
    · rw [List.replicate_succ, execAll, hx]; exact h1
    · simp [List.replicate_succ, idsFor, buildTarget]; exact h3

/-- Among 65537 builds for one unit there are two whose places differ by 1 and two whose places differ by 65535. -/
theorem witness_TransactionIdSequence :
    ∃ (is : List Instr) (t : State) (rs : List Result) (bl : Builder) (w x y : U16),
      (∀ i ∈ is, (buildTarget i).isSome = true) ∧ tcpBuilder.builders[0]? = some bl ∧ bl.mode = .tcp ∧
      bl.tids.last 0x01 = 0 ∧ execAll is tcpBuilder = .next t ∧ t.results = tcpBuilder.results ++ rs ∧
      (idsFor 0 0x01 is rs)[0]? = some w ∧ (idsFor 0 0x01 is rs)[1]? = some x ∧ (idsFor 0 0x01 is rs)[0 + 65535]? = some y := by
  obtain ⟨t, rs, h1, h2, h3⟩ := builds_complete 65537 tcpBuilder rfl
  exact ⟨_, t, rs, _, _, _, _, by intro i hi; rw [List.eq_of_mem_replicate hi]; rfl, rfl, rfl, TidTable.last_fresh _, h1, h2,
    List.getElem?_eq_getElem (by omega), List.getElem?_eq_getElem (by omega), List.getElem?_eq_getElem (by omega)⟩

/-- P5: two agents build for unit 0x01; once as the first ids, once across the wrap. -/
theorem witness_ConcurrentBuildsGetConsecutiveIds :
    ∀ s ∈ [tcpBuilder, lastIs tcpBuilder 0x01 0xFFFE, lastIs tcpBuilder 0x01 0xFFFF],
      ∃ (i j : Issue) (x y : Instr) (bl : Builder) (s₁ s₂ : State),
        decode i = .ok x ∧ decode j = .ok y ∧ buildTarget x = some (0, 0x01) ∧ buildTarget y = some (0, 0x01) ∧
        s.builders[0]? = some bl ∧ bl.mode = .tcp ∧ step { s with pending := [i, j] } = .next s₁ ∧ step s₁ = .next s₂ := by
  intro s hs
  simp only [List.mem_cons, List.not_mem_nil, or_false] at hs
  rcases hs with rfl | rfl | rfl <;>
    exact ⟨opIssue 0 0x10 [.num 0, .num 1, .num 0, .num 8], opIssue 1 0x10 [.num 0, .num 1, .num 0, .num 8], _, _, _, _, _,
      rfl, rfl, rfl, rfl, rfl, rfl, rfl, rfl⟩

theorem witness_BuildersRefuseBadIndexAndLongValues :
    tcpBuilder.builders.length ≤ 1 ∧ buildTarget (.buildReqReadCoils 1 0 0 0) = some (1, 0) ∧ 0 < tcpBuilder.builders.length ∧
    255 < (List.replicate 256 (0 : Byte)).length := ⟨by decide, rfl, by decide, by rw [List.length_replicate]; decide⟩

theorem witness_EveryFunctionByteIsClassified :
    (∀ fb ∈ ([0x00, 0x07, 0x0E, 0x11, 0x7F, 0x80, 0x81, 0xFF] : List Byte), fb ∉ legalBytes .req) ∧
    (∀ fb ∈ ([0x00, 0x07, 0x0E, 0x11, 0x7F, 0x80, 0x87, 0x8E, 0x91, 0xFF] : List Byte), fb ∉ legalBytes .rsp) ∧
    byteAt [0, 0, 0, 0, 0, 2, 0, 0x7F] 7 = 0x7F ∧ byteAt [0, 0x7F] 1 = 0x7F := by decide

theorem witness_ExceptionCodesDecode :
    (∀ x ∈ ([0x00, 0x06, 0xFF] : List Byte), x ∉ ([0x01, 0x02, 0x03, 0x04, 0x05] : List Byte)) ∧ (0x02 : Byte) ≠ 0x01 := by decide

/-- The shortest and the longest WF value. -/
theorem witness_WireLengths : (v3 1).wf = true ∧ longest.wf = true := ⟨by decide, by decide +kernel⟩

/-- EncodeTcpReturnsTheWireBytes, EncodeRtuReturnsTheWireBytes: a WF value and one that is not. -/
theorem witness_Encoders : (v3 1).wf = true ∧ Frame.wf { v3 1 with kind := .request } = false := by decide

/-- TcpRoundTrip, RtuRoundTripAndStability. -/
theorem witness_RoundTrips :
    (v3 1).wf = true ∧ quirkFree true (v3 1) ∧ lost.wf = true ∧ quirkFree false lost ∧ ¬ quirkFree true lost :=
  ⟨by decide, .inr (by decide), by decide, .inl rfl, by simp [quirkFree, lost]⟩

/-- TcpPartialFrameStability, RtuRoundTripAndStability: the prefixes of no byte and of all but the last one. -/
theorem witness_PartialFrameStability :
    (v3 1).wf = true ∧ 0 < (tcpEncode (v3 1)).length ∧ 8 < (tcpEncode (v3 1)).length ∧ 4 < (rtuEncode (v3 1)).length := by
  refine ⟨by decide, by decide, by decide, ?_⟩
  simp [rtuEncode, rtuPayload, v3, encBody]

/-- TcpDecodedFramesAreWellFormed, RtuDecodedFramesAreWellFormed, DecodedKindAndFlag: frames decode in both directions, with and without the exception flag (V34a, V35a, V35f, V36a, V37b, V37d). -/
theorem witness_DecodedFrames :
    tcpDecode false .req [0x00, 0x01, 0x00, 0x00, 0x00, 0x06, 0x11, 0x03, 0x00, 0x6B, 0x00, 0x03] =
      .frame (frameOf .request 1 6 0x11 .readMultipleHoldingRegisters (.readReq 0x006B 0x0003)) 12 ∧
    tcpDecode false .rsp [0x00, 0x01, 0x00, 0x00, 0x00, 0x03, 0x0A, 0x81, 0x02] = .frame (v3 1) 9 ∧
    tcpDecode false .rsp [0x00, 0x01, 0x00, 0x00, 0x00, 0x03, 0x11, 0x01, 0x00] =
      .frame (frameOf .response 1 3 0x11 .readCoils (.readRsp [])) 9 ∧
    rtuDecode false .req [0x0B, 0x01, 0x00, 0x1D, 0x00, 0x1F, 0xED, 0x6E] =
      .frame (frameOf .request 0 6 0x0B .readCoils (.readReq 0x001D 0x001F)) 8 ∧
    rtuDecode false .rsp [0x0A, 0x81, 0x02, 0xB0, 0x53] = .frame (v3 0) 5 ∧
    rtuDecode false .rsp [0x11, 0x01, 0x00, 0x20, 0x55] = .frame (frameOf .response 0 3 0x11 .readCoils (.readRsp [])) 5 := by
  decide +kernel

/-- One buffer for each condition of R149, in its order, at the boundary of each: 7 and 8 bytes, length 1 and 2, the last body
byte missing and present, a body too short, an unknown exception code, a known one. -/
theorem witness_TcpOutcomePriority :
    ([0x00, 0x01, 0x00, 0x00, 0x00, 0x06, 0x11] : Bytes).length < 8 ∧
    byteAt [0x00, 0x01, 0x00, 0x00, 0x00, 0x01, 0x11, 0x07] 7 ∉ legalBytes .req ∧
    (byteAt [0x00, 0x01, 0x00, 0x00, 0x00, 0x01, 0x11, 0x03] 7 ∈ legalBytes .req ∧
      (rdBe16 [0x00, 0x01, 0x00, 0x00, 0x00, 0x01, 0x11, 0x03] 4).toNat < 2) ∧
    (byteAt [0x00, 0x01, 0x00, 0x00, 0x00, 0x03, 0x0A, 0x81] 7 ∈ legalBytes .rsp ∧
      ([0x00, 0x01, 0x00, 0x00, 0x00, 0x03, 0x0A, 0x81] : Bytes).length < 6 + (rdBe16 [0x00, 0x01, 0x00, 0x00, 0x00, 0x03, 0x0A, 0x81] 4).toNat) ∧
    (2 ≤ (rdBe16 [0x00, 0x01, 0x00, 0x00, 0x00, 0x02, 0x11, 0x01] 4).toNat ∧ bodyLength .rsp .readCoils false [] ≠ some 0) ∧
    ((0x81 : Byte) = Fn.readCoils.code ||| 0x80 ∧ bodyLength .rsp .readCoils true [0x06] = some 1 ∧ excDecode false 0x06 = none) ∧
    (bodyLength .rsp .readCoils true [0x02] = some 1 ∧ excDecode false 0x02 ≠ none ∧
      6 + (rdBe16 [0x00, 0x01, 0x00, 0x00, 0x00, 0x03, 0x0A, 0x81, 0x02] 4).toNat ≤
        ([0x00, 0x01, 0x00, 0x00, 0x00, 0x03, 0x0A, 0x81, 0x02] : Bytes).length) := by decide

/-- One buffer for each condition of R167, in its order (V36d, V36e, V37e, V48, V37c, V38a, V37b). -/
theorem witness_RtuOutcomePriority :
    ([0x0B] : Bytes).length < 2 ∧ byteAt [0x0B, 0x07] 1 ∉ legalBytes .req ∧
    ((0x01 : Byte) = Fn.readCoils.code ||| 0x00 ∧ (0x01 : Byte) ∈ legalBytes .rsp ∧ bodyLength .rsp .readCoils false [] = none) ∧
    (bodyLength .rsp .readCoils true [] = some 1 ∧ ([0x0A, 0x81] : Bytes).length < 2 + 1) ∧
    (2 + 1 ≤ ([0x0A, 0x81, 0x02] : Bytes).length ∧ ([0x0A, 0x81, 0x02, 0xB0] : Bytes).length < 4 + 1) ∧
    crc16 (([0x0A, 0x81, 0x02, 0xB0, 0x54] : Bytes).take 3) ≠ rdLe16 [0x0A, 0x81, 0x02, 0xB0, 0x54] 3 ∧
    (crc16 (([0x0A, 0x81, 0x00, 0x31, 0x92] : Bytes).take 3) = rdLe16 [0x0A, 0x81, 0x00, 0x31, 0x92] 3 ∧ excDecode false 0x00 = none) ∧
    (crc16 (([0x0A, 0x81, 0x02, 0xB0, 0x53] : Bytes).take 3) = rdLe16 [0x0A, 0x81, 0x02, 0xB0, 0x53] 3 ∧ excDecode false 0x02 ≠ none) := by
  decide +kernel

theorem witness_RtuLengthInferenceMatchesTheTables :
    (Dir.req = .req → false = false) ∧ (Dir.rsp = .req → true = false) ∧ Fn.readCoils.group = .read ∧
    Fn.writeSingleCoil.group = .wsingle ∧ Fn.writeMultipleCoils.group = .wmulti := by decide

/-- RX_PUSH of no byte by an agent that is not the owner (the reason is the model's choice, log 10). -/
theorem test_empty_push_not_owner :
    refusalOf (step { small .rtu .rtu .rsp [] with pending := [opIssue 1 0x50 [.num 0, .bytes []]] }) = some .notOwner := by decide

/-- The owner pushes 8 bytes, at once and one at a time, onto 260 where the capacity is 268. -/
theorem witness_RxPushAppends :
    ∃ st, ({ small .rtu .rtu .rsp (List.replicate 260 0) with rxCapacity := some 268 } : State).streams[0]? = some st ∧ st.owner = 0 ∧
      st.buf.length + 8 ≤ 268 ∧ (List.replicate 8 (0 : Byte)) ≠ [] ∧ (∀ x ∈ List.replicate 8 [(0 : Byte)], x ≠ []) ∧
      (List.replicate 8 [(0 : Byte)]).flatten = List.replicate 8 0 :=
  ⟨_, rfl, rfl, by change (List.replicate 260 (0 : Byte)).length + 8 ≤ 268; rw [List.length_replicate], by decide, by decide, rfl⟩

theorem witness_RxDecodeConsumesOnlyAFrame :
    (∃ st, (small .rtu .rtu .rsp [0x0A, 0x81, 0x02, 0xB0, 0x53, 0x11]).streams[0]? = some st ∧ st.owner = 0 ∧
      streamDecode false st.proto st.dir st.buf = .frame (v3 0) 5) ∧
    (∃ st, (small .rtu .rtu .rsp []).streams[0]? = some st ∧ st.owner = 0 ∧ streamDecode false st.proto st.dir st.buf = .incomplete) ∧
    (∃ st, (small .rtu .rtu .rsp [0xFF, 0x0A]).streams[0]? = some st ∧ st.owner = 0 ∧
      streamDecode false st.proto st.dir st.buf = .error (.invalidFunctionCode 0x0A)) :=
  ⟨⟨_, rfl, rfl, by decide +kernel⟩, ⟨_, rfl, rfl, by decide⟩, ⟨_, rfl, rfl, by decide⟩⟩

theorem witness_RxDiscardAndFlushDropBytes :
    ∃ st, (small .rtu .rtu .rsp [0x0A, 0x81]).streams[0]? = some st ∧ st.owner = 0 ∧ 0 ≤ st.buf.length ∧ 2 ≤ st.buf.length :=
  ⟨_, rfl, rfl, by decide, by decide⟩

/-- Incomplete buffers of every kind: TCP of 7 and of 8 bytes; RTU of 1 byte, without its count byte, without its body, without
its CRC. -/
theorem witness_RxStatusReportsLengthAndPhase :
    streamDecode false .tcp .rsp [0x00, 0x01, 0x00, 0x00, 0x00, 0x03, 0x0A] = .incomplete ∧
    streamDecode false .tcp .rsp [0x00, 0x01, 0x00, 0x00, 0x00, 0x03, 0x0A, 0x81] = .incomplete ∧
    streamDecode false .rtu .rsp [0x11] = .incomplete ∧
    (streamDecode false .rtu .rsp [0x11, 0x01] = .incomplete ∧ rtuBlen .rsp .readCoils false [0x11, 0x01] = none) ∧
    (streamDecode false .rtu .rsp [0x11, 0x01, 0x03] = .incomplete ∧ rtuBlen .rsp .readCoils false [0x11, 0x01, 0x03] = some 4) ∧
    streamDecode false .rtu .rsp [0x11, 0x01, 0x03, 0xCD, 0x6B, 0x05, 0x40] = .incomplete := by decide

theorem witness_OnlyTheOwnerReachesAStream :
    (∃ st, ({ small .rtu .rtu .rsp [] with issuer := 1 } : State).streams[0]? = some st ∧ streamTarget (.rxFlush 0) = some 0 ∧ st.owner ≠ 1) ∧
    streamTarget .reset = none ∧ (∃ t, exec .reset tcpBuilder = .next t) ∧
    exec (.buildReqReadCoils 1 0 0 0) tcpBuilder = .refused .operandOutOfRange ∧ streamTarget (.buildReqReadCoils 1 0 0 0) = none :=
  ⟨⟨_, rfl, rfl, by decide⟩, rfl, ⟨_, rfl⟩, rfl, rfl⟩

theorem witness_StreamOperationsRefuseBrokenDuties :
    tcpBuilder.streams.length ≤ 1 ∧ streamTarget (.rxStatus 1) = some 1 ∧
    (∃ st, (small .rtu .rtu .rsp [0x0A, 0x81]).streams[0]? = some st ∧ st.owner = 0 ∧ st.buf.length < 3) ∧
    (∃ st, (small .rtu .rtu .rsp (List.replicate 260 0)).streams[0]? = some st ∧ st.owner = 0 ∧ 268 < st.buf.length + 9) ∧
    (∃ st, ({ small .rtu .rtu .rsp [] with issuer := 1 } : State).streams[0]? = some st ∧ st.owner ≠ 1) :=
  ⟨by decide, rfl, ⟨_, rfl, rfl, by decide⟩,
    ⟨_, rfl, rfl, by change 268 < (List.replicate 260 (0 : Byte)).length + 9; rw [List.length_replicate]; decide⟩,
    ⟨_, rfl, by decide⟩⟩

theorem witness_StreamOperationsChangeOneBufferOnly :
    ∃ t, streamTarget (.rxStatus 0) = some 0 ∧ exec (.rxStatus 0) (small .rtu .rtu .rsp [0x0A]) = .next t ∧ (1 : Nat) ≠ 0 :=
  ⟨_, rfl, rfl, by decide⟩

theorem witness_PhaseMovesForwardUnderPush :
    phase false .rtu .rsp [0x0A, 0x81, 0x02, 0xB0, 0x53] = .complete ∧ phase false .rtu .rsp [0xFF, 0x0A] = .error := by decide +kernel

theorem witness_DecodeIsPrefixStable :
    streamDecode false .tcp .rsp [0x00, 0x01, 0x00, 0x00, 0x00, 0x03, 0x0A, 0x81, 0x02] ≠ .incomplete ∧
    streamDecode false .rtu .rsp [0xFF, 0x0A] ≠ .incomplete := by decide +kernel

/-- Two streams that hold an error, owned by agents 0 and 1. -/
def twoStreams : State :=
  { State.ofConfig { modes := [.rtu], streams := [], rxCapacity := none, refExcQuirk := false } with
    streams := [{ proto := .rtu, dir := .rsp, owner := 0, buf := [0xFF, 0x0A] }, { proto := .rtu, dir := .rsp, owner := 1, buf := [0xFF, 0x0A] }] }

/-- Meanwhile the owner pushes and decodes, and another agent pushes to and flushes its own stream. -/
theorem witness_ErrorPersistsUntilBytesAreRemoved :
    ∃ st t, twoStreams.streams[0]? = some st ∧ st.owner = twoStreams.issuer ∧
      streamDecode twoStreams.refExcQuirk st.proto st.dir st.buf = .error (.invalidFunctionCode 0x0A) ∧
      (∀ i ∈ [((0 : Agent), Instr.rxPush 0 [0x81]), (1, .rxPush 1 [0x81]), (1, .rxFlush 1), (0, .rxDecode 0)],
        i.2 ≠ .reset ∧ i.2 ≠ .rxFlush 0 ∧ ∀ k, i.2 ≠ .rxDiscard 0 k) ∧
      execIssued [((0 : Agent), Instr.rxPush 0 [0x81]), (1, .rxPush 1 [0x81]), (1, .rxFlush 1), (0, .rxDecode 0)] twoStreams = .next t :=
  ⟨_, _, rfl, rfl, by decide, by simp, rfl⟩

/-- P4: two frames back to back, then the beginning of a third. -/
theorem witness_BackToBackFramesDecodeInOrder :
    ∃ st, (small .tcp .tcp .rsp [0x00, 0x01, 0x00, 0x00, 0x00, 0x05, 0x11, 0x04, 0x02, 0x00, 0x0A, 0x00, 0x01, 0x00, 0x00, 0x00, 0x03,
        0x0A, 0x81, 0x02, 0x00, 0x03, 0x00, 0x00]).streams[0]? = some st ∧ st.owner = 0 ∧
      (∀ fr ∈ [frameOf .response 1 5 0x11 .readInputRegisters (.readRsp [0x00, 0x0A]), v3 1],
        fr.wf = true ∧ fr.kind = kindOf st.dir ∧ quirkFree false fr) ∧
      st.buf = ([frameOf .response 1 5 0x11 .readInputRegisters (.readRsp [0x00, 0x0A]), v3 1].map (wireBytes st.proto)).flatten ++
        [0x00, 0x03, 0x00, 0x00] := by
  refine ⟨_, rfl, rfl, ?_, by decide⟩
  intro fr h
  simp only [List.mem_cons, List.not_mem_nil, or_false] at h
  rcases h with rfl | rfl <;> exact ⟨by decide, rfl, .inl rfl⟩

/-- A length field of 0xFFFF with 65540 and with 65541 bytes; 264 bytes. -/
theorem witness_LengthStallIsBounded : ∀ n ∈ [65532, 65533],
    byteAt ([0x00, 0x01, 0x00, 0x00, 0xFF, 0xFF, 0x11, 0x03] ++ List.replicate n 0) 7 ∈ legalBytes .req ∧
    rdBe16 ([0x00, 0x01, 0x00, 0x00, 0xFF, 0xFF, 0x11, 0x03] ++ List.replicate n 0) 4 = 0xFFFF ∧
    ([0x00, 0x01, 0x00, 0x00, 0xFF, 0xFF, 0x11, 0x03] ++ List.replicate n (0 : Byte)).length = 8 + n ∧
    264 ≤ (List.replicate 264 (0 : Byte)).length := by
  intro n _
  refine ⟨by rw [byteAt_append_left _ _ _ (by decide)]; decide, by rw [rdBe16_append_left _ _ _ (by decide)]; decide, by simp; omega,
    by rw [List.length_replicate]⟩


end Sys2Proof.Tests
end

section
/-! PROOFS. The family of spec/10_state.md. First the reasoning rules the statements share: what a decoder's frame is, that
the kinds of instruction exclude each other, what an operation can answer, and what a step can do; then what every operation
keeps; last the statements themselves, each a short use of these rules. -/

namespace Sys2Proof

/-! ## Decoded frames -/

/-- A body that parses makes a WF value with every head that has the classified function and flag and the body's length
(R32, R63, R74). -/
theorem parsed_wf {q : Bool} {dir : Dir} {fb : Byte} {head : Head} {bd : Bytes} {body : Body}
    (hc : classify dir fb = .ok (head.function, head.isException))
    (hp : parseBody q dir head.function head.isException bd = .ok body)
    (hl : head.length.toNat = 2 + bd.length) :
    Frame.wf { kind := kindOf dir, head := head, body := body } = true := by
  have hreq := (classify_ok _ _ _ _ hc).2
  obtain ⟨hblen, hshape, hvals⟩ := parseBody_ok hreq hp
  refine (Frame.wf_iff _).2 ⟨hshape, fun hk => hreq ?_, hvals, hblen ▸ hl⟩
  cases dir
  · rfl
  · cases hk

/-- All that `tcp_decode` has found when it returns a frame (R141). -/
theorem tcpDecode_frame {q : Bool} {dir : Dir} {bs : Bytes} {v : Frame} {n : Nat} (h : tcpDecode q dir bs = .frame v n) :
    ∃ f exc body, classify dir (byteAt bs 7) = .ok (f, exc) ∧ 2 ≤ (rdBe16 bs 4).toNat ∧
      8 + ((rdBe16 bs 4).toNat - 2) ≤ bs.length ∧
      parseBody q dir f exc (slice bs 8 (8 + ((rdBe16 bs 4).toNat - 2))) = .ok body ∧
      v = { kind := kindOf dir,
            head := { transactionId := rdBe16 bs 0, protocolId := rdBe16 bs 2, length := rdBe16 bs 4,
                      unitId := byteAt bs 6, function := f, isException := exc },
            body := body } ∧
      n = 8 + ((rdBe16 bs 4).toNat - 2) := by
  unfold tcpDecode at h
  split at h
  · cases h
  split at h
  · cases h
  next f exc hc =>
  split at h
  · cases h
  next hlen =>
  split at h
  · cases h
  next hbuf =>
  split at h
  · cases h
  · cases h
  next body hp =>
  cases h
  exact ⟨f, exc, body, hc, by omega, by omega, hp, rfl, rfl⟩

/-- All that `rtu_decode` has found when it returns a frame (R161). -/
theorem rtuDecode_frame {q : Bool} {dir : Dir} {bs : Bytes} {v : Frame} {n : Nat} (h : rtuDecode q dir bs = .frame v n) :
    ∃ f exc bl body, classify dir (byteAt bs 1) = .ok (f, exc) ∧ rtuBlen dir f exc bs = some bl ∧
      2 + bl + 2 ≤ bs.length ∧ crcCheck (slice bs 0 (2 + bl)) (rdLe16 bs (2 + bl)) = true ∧
      parseBody q dir f exc (slice bs 2 (2 + bl)) = .ok body ∧
      v = { kind := kindOf dir,
            head := { transactionId := 0, protocolId := 0, length := BitVec.ofNat 16 (2 + bl),
                      unitId := byteAt bs 0, function := f, isException := exc },
            body := body } ∧
      n = 4 + bl := by
  unfold rtuDecode at h
  split at h
  · cases h
  split at h
  · cases h
  next f exc hc =>
  split at h
  · cases h
  next bl hbl =>
  split at h
  · cases h
  split at h
  · cases h
  next hbuf =>
  split at h
  · cases h
  next hcrc =>
  split at h
  · cases h
  · cases h
  next body hp =>
  cases h
  exact ⟨f, exc, bl, body, hc, hbl, by omega, by simpa using hcrc, hp, rfl, rfl⟩

/-- Every frame `tcp_decode` returns is WF (R145). -/
theorem tcpDecode_wf {q : Bool} {dir : Dir} {bs : Bytes} {v : Frame} {n : Nat} (h : tcpDecode q dir bs = .frame v n) :
    v.wf = true := by
  obtain ⟨f, exc, body, hc, hlen, hbuf, hp, rfl, -⟩ := tcpDecode_frame h
  have hl : (rdBe16 bs 4).toNat = 2 + (slice bs 8 (8 + ((rdBe16 bs 4).toNat - 2))).length := by
    rw [slice_length]; omega
  exact parsed_wf hc hp hl

/-- Every frame `rtu_decode` returns is WF (R165). -/
theorem rtuDecode_wf {q : Bool} {dir : Dir} {bs : Bytes} {v : Frame} {n : Nat} (h : rtuDecode q dir bs = .frame v n) :
    v.wf = true := by
  obtain ⟨f, exc, bl, body, hc, hbl, hbuf, -, hp, rfl, -⟩ := rtuDecode_frame h
  have hle := (rtuBlen_range hbl).2
  have hl : (BitVec.ofNat 16 (2 + bl)).toNat = 2 + (slice bs 2 (2 + bl)).length := by
    rw [slice_length, BitVec.toNat_ofNat, Nat.mod_eq_of_lt (by omega)]; omega
  exact parsed_wf hc hp hl

end Sys2Proof

namespace Sys2Proof.Machine

/-! ## Results hold only WF frames -/

/-- An outcome holds only WF frames where every frame it can be is WF. -/
theorem outcome_framesWf {o : DecodeOutcome} (h : ∀ v n, o = .frame v n → v.wf = true) :
    (Result.outcome o).framesWf = true := by
  cases o with
  | frame v n => exact h v n rfl
  | incomplete => rfl
  | error e => rfl

/-- What `tcp_decode` returns holds only WF frames (R32). -/
theorem tcpDecode_framesWf (q : Bool) (dir : Dir) (bs : Bytes) : (Result.outcome (tcpDecode q dir bs)).framesWf = true :=
  outcome_framesWf fun _ _ => tcpDecode_wf

/-- What `rtu_decode` returns holds only WF frames (R32). -/
theorem rtuDecode_framesWf (q : Bool) (dir : Dir) (bs : Bytes) : (Result.outcome (rtuDecode q dir bs)).framesWf = true :=
  outcome_framesWf fun _ _ => rtuDecode_wf

/-- What a stream's decoder returns holds only WF frames (R32). -/
theorem streamDecode_framesWf (q : Bool) (p : Proto) (dir : Dir) (bs : Bytes) :
    (Result.outcome (streamDecode q p dir bs)).framesWf = true := by
  cases p with
  | tcp => exact tcpDecode_framesWf q dir bs
  | rtu => exact rtuDecode_framesWf q dir bs

/-- A function-byte row returns one result, which holds no frame. -/
theorem wireLookup_next {dir : Dir} {fb : Byte} {body : Bytes} {s t : State} (h : wireLookup dir fb body s = .next t) :
    ∃ r, t = s.post r ∧ r.framesWf = true := by
  unfold wireLookup at h
  split at h <;> cases h
  · exact ⟨_, rfl, rfl⟩
  · exact ⟨_, rfl, rfl⟩

/-- An exception-code row returns one result, which holds no frame. -/
theorem wireException_next {x : Byte} {s t : State} (h : wireException x s = .next t) :
    ∃ r, t = s.post r ∧ r.framesWf = true := by
  unfold wireException at h
  split at h <;> cases h
  · exact ⟨_, rfl, rfl⟩
  · exact ⟨_, rfl, rfl⟩

/-! ## The kinds of instruction -/

/-- A builder operation is no RX_* operation. -/
theorem streamTarget_of_build {i : Instr} {b : Nat} {u : Byte} (h : buildTarget i = some (b, u)) : streamTarget i = none := by
  cases i <;> simp only [buildTarget, reduceCtorEq] at h <;> rfl

/-- An RX_* operation is no builder operation. -/
theorem buildTarget_of_stream {i : Instr} {n : Nat} (h : streamTarget i = some n) : buildTarget i = none := by
  cases i <;> simp only [streamTarget, reduceCtorEq] at h <;> rfl

/-- Every instruction is of one of the four kinds of Laws/Exec: a builder, an RX_* operation, RESET, or one that only
answers. -/
theorem kind_cases (i : Instr) : (∃ b u, buildTarget i = some (b, u)) ∨ (∃ n, streamTarget i = some n) ∨ i = .reset ∨
    (buildTarget i = none ∧ streamTarget i = none ∧ i ≠ .reset) := by
  cases hb : buildTarget i with
  | some p => exact .inl ⟨p.1, p.2, rfl⟩
  | none =>
    cases hs : streamTarget i with
    | some n => exact .inr (.inl ⟨n, rfl⟩)
    | none => by_cases hr : i = .reset <;> simp [hr]

/-- All that a builder operation can do when it answers a next state: it allocates on the builder it names and returns a WF
frame (R113). -/
theorem exec_build_next {i : Instr} {b : Nat} {u : Byte} {s t : State} (hi : buildTarget i = some (b, u))
    (h : exec i s = .next t) :
    ∃ bl fr, s.builders[b]? = some bl ∧ fr.wf = true ∧ t = (s.setBuilder b (bl.allocate u).2).post (.frame fr) := by
  obtain ⟨kind, f, exc, body, hshape, hreq, hmk⟩ := exec_build hi
  obtain ⟨bl, hbl, hvals, ht⟩ := mk_next.1 (hmk s ▸ h)
  exact ⟨bl, _, hbl, built_wf _ hshape hreq hvals, ht⟩

/-- All that an instruction of the last kind can do when it answers a next state: return one result, whose frames are WF. -/
theorem exec_answer_next {i : Instr} {s t : State} (hb : buildTarget i = none) (hs : streamTarget i = none) (hr : i ≠ .reset)
    (h : exec i s = .next t) : ∃ r, t = s.post r ∧ r.framesWf = true := by
  cases i <;> simp only [buildTarget, streamTarget, reduceCtorEq, ne_eq, not_true_eq_false] at hb hs hr
  case crcCompute bs => cases h; exact ⟨_, rfl, rfl⟩
  case crcCheck bs c => cases h; exact ⟨_, rfl, rfl⟩
  case encodeTcp fr =>
    simp only [exec, execEncodeTcp] at h
    split at h <;> cases h
    exact ⟨_, rfl, rfl⟩
  case encodeRtu fr =>
    simp only [exec, execEncodeRtu] at h
    split at h <;> cases h
    exact ⟨_, rfl, rfl⟩
  case decodeTcpReq bs => cases h; exact ⟨_, rfl, tcpDecode_framesWf _ _ _⟩
  case decodeTcpRsp bs => cases h; exact ⟨_, rfl, tcpDecode_framesWf _ _ _⟩
  case decodeRtuReq bs => cases h; exact ⟨_, rfl, rtuDecode_framesWf _ _ _⟩
  case decodeRtuRsp bs => cases h; exact ⟨_, rfl, rtuDecode_framesWf _ _ _⟩
  case wireExceptionCodeIllegalFunction => exact wireException_next h
  case wireExceptionCodeIllegalDataAddress => exact wireException_next h
  case wireExceptionCodeIllegalDataValue => exact wireException_next h
  case wireExceptionCodeSlaveDeviceFailure => exact wireException_next h
  case wireExceptionCodeAcknowledge => exact wireException_next h
  all_goals
    unfold exec at h
    exact wireLookup_next h

/-- Where an RX_* operation completes, its result holds only WF frames and its buffer is within the capacity if it was
(R27, R32, R44). -/
theorem streamEffect_wf_and_fits {s : State} {st : Stream} {i : Instr} {bs : Bytes} {r : Result}
    (h : streamEffect s st i = some (bs, r)) :
    r.framesWf = true ∧ (fitsCapacity s.rxCapacity st.buf.length = true → fitsCapacity s.rxCapacity bs.length = true) := by
  cases i <;> simp only [streamEffect, Option.ite_none_right_eq_some, Option.some.injEq, Prod.mk.injEq, reduceCtorEq] at h
  case rxPush n pushed =>
    obtain ⟨⟨-, hfits⟩, rfl, rfl⟩ := h
    exact ⟨rfl, fun _ => by rwa [List.length_append]⟩
  case rxDecode n =>
    obtain ⟨rfl, rfl⟩ := h
    exact ⟨streamDecode_framesWf .., fun hf => fitsCapacity_mono hf (afterDecode_length_le ..)⟩
  case rxDiscard n k =>
    obtain ⟨-, rfl, rfl⟩ := h
    exact ⟨rfl, fun hf => fitsCapacity_mono hf (by simp)⟩
  case rxFlush n =>
    obtain ⟨rfl, rfl⟩ := h
    exact ⟨rfl, fun hf => fitsCapacity_mono hf (Nat.zero_le _)⟩
  case rxStatus n =>
    obtain ⟨rfl, rfl⟩ := h
    exact ⟨rfl, id⟩

/-- What an RX_* operation does to a stream depends on the capacity and the quirk alone, beside the stream. -/
theorem streamEffect_congr {s s' : State} (hc : s'.rxCapacity = s.rxCapacity) (hq : s'.refExcQuirk = s.refExcQuirk)
    (st : Stream) (i : Instr) : streamEffect s' st i = streamEffect s st i := by
  cases i <;> simp only [streamEffect, hc, hq]

/-! ## What every operation keeps -/

/-- No operation writes the configuration (R23). -/
theorem exec_config {i : Instr} {s t : State} (h : exec i s = .next t) : t.config = s.config := by
  rcases kind_cases i with ⟨b, u, hb⟩ | ⟨n, hs⟩ | rfl | ⟨hb, hs, hr⟩
  · obtain ⟨bl, fr, hbl, -, rfl⟩ := exec_build_next hb h
    rw [State.post_config, State.setBuilder_config s b bl _ hbl (Builder.allocate_mode bl u)]
  · obtain ⟨st, bs, r, hst, -, -, rfl⟩ := (exec_stream_next hs).1 h
    rw [State.post_config, State.setBuf_config s n st bs hst]
  · cases h
    simp [State.config, Function.comp_def]
  · obtain ⟨r, rfl, -⟩ := exec_answer_next hb hs hr h
    exact State.post_config s r

/-- Every operation adds exactly one result, whose frames are WF (R32). -/
theorem exec_result {i : Instr} {s t : State} (h : exec i s = .next t) :
    ∃ r, t.results = s.results ++ [r] ∧ r.framesWf = true := by
  rcases kind_cases i with ⟨b, u, hb⟩ | ⟨n, hs⟩ | rfl | ⟨hb, hs, hr⟩
  · obtain ⟨bl, fr, -, hwf, rfl⟩ := exec_build_next hb h
    exact ⟨_, rfl, hwf⟩
  · obtain ⟨st, bs, r, -, -, he, rfl⟩ := (exec_stream_next hs).1 h
    exact ⟨r, rfl, (streamEffect_wf_and_fits he).1⟩
  · cases h
    exact ⟨_, rfl, rfl⟩
  · obtain ⟨r, rfl, hwf⟩ := exec_answer_next hb hs hr h
    exact ⟨r, rfl, hwf⟩

/-- No operation takes a buffer past the capacity (R27, R44). -/
theorem exec_keeps_capacity {i : Instr} {s t : State} (h : exec i s = .next t)
    (hfit : ∀ st ∈ s.streams, fitsCapacity s.rxCapacity st.buf.length = true) :
    ∀ st ∈ t.streams, fitsCapacity t.rxCapacity st.buf.length = true := by
  rcases kind_cases i with ⟨b, u, hb⟩ | ⟨n, hs⟩ | rfl | ⟨hb, hs, hr⟩
  · obtain ⟨bl, fr, -, -, rfl⟩ := exec_build_next hb h
    exact hfit
  · obtain ⟨st, bs, r, hst, -, he, rfl⟩ := (exec_stream_next hs).1 h
    exact setBuf_keeps_capacity hfit ((streamEffect_wf_and_fits he).2 (hfit st (List.mem_of_getElem? hst)))
  · cases h
    simp only [State.post_streams, List.mem_map, State.post_rxCapacity]
    rintro _ ⟨st, hst, rfl⟩
    exact fitsCapacity_mono (hfit st hst) (Nat.zero_le _)
  · obtain ⟨r, rfl, -⟩ := exec_answer_next hb hs hr h
    exact hfit

/-! ## What a step can do -/

/-- The state in which the issue `i` executes, with `rest` still pending (R47, R49). -/
def State.issuing (s : State) (i : Issue) (rest : List Issue) : State := { s with pending := rest, issuer := i.agent }

@[simp] theorem State.issuing_builders (s : State) (i : Issue) (rest : List Issue) :
    (s.issuing i rest).builders = s.builders := rfl
@[simp] theorem State.issuing_streams (s : State) (i : Issue) (rest : List Issue) : (s.issuing i rest).streams = s.streams := rfl
@[simp] theorem State.issuing_rxCapacity (s : State) (i : Issue) (rest : List Issue) :
    (s.issuing i rest).rxCapacity = s.rxCapacity := rfl
@[simp] theorem State.issuing_refExcQuirk (s : State) (i : Issue) (rest : List Issue) :
    (s.issuing i rest).refExcQuirk = s.refExcQuirk := rfl
@[simp] theorem State.issuing_pending (s : State) (i : Issue) (rest : List Issue) : (s.issuing i rest).pending = rest := rfl
@[simp] theorem State.issuing_issuer (s : State) (i : Issue) (rest : List Issue) : (s.issuing i rest).issuer = i.agent := rfl
@[simp] theorem State.issuing_results (s : State) (i : Issue) (rest : List Issue) : (s.issuing i rest).results = s.results := rfl
@[simp] theorem State.issuing_config (s : State) (i : Issue) (rest : List Issue) : (s.issuing i rest).config = s.config := rfl

/-- With nothing pending a step changes nothing (log 5). -/
theorem step_idle {s : State} (h : s.pending = []) : step s = .next s := by
  simp [step, State.take, h]

/-- A step executes the issue at the head of the port, where it decodes. -/
theorem step_decoded {s : State} {i : Issue} {rest : List Issue} {x : Instr} (h : s.pending = i :: rest)
    (hd : decode i = .ok x) : step s = exec x (s.issuing i rest) := by
  simp [step, State.take, h, hd, State.issuing]

/-- A step answers for the issue at the head of the port, where the decoder rejects it. -/
theorem step_rejected {s : State} {i : Issue} {rest : List Issue} {r : Reject} (h : s.pending = i :: rest)
    (hd : decode i = .error r) : step s = rejected r (s.issuing i rest) := by
  simp [step, State.take, h, hd, State.issuing]

/-- A rejected issue is answered with a next state only where it is a byte of a frame that has no row (R65, R66). -/
theorem rejected_next {r : Reject} {s t : State} (h : rejected r s = .next t) :
    ∃ e, r = .wireError e ∧ t = s.postOutcome (.error e) := by
  cases r with
  | wireError e => cases h; exact ⟨e, rfl, rfl⟩
  | unknownOperation => cases h
  | operandOutOfRange => cases h

/-- All that a step can do when it answers a next state: nothing, where nothing is pending; execute the issue at the head of
the port; or return the error of a byte of a frame. -/
theorem step_next {s t : State} (h : step s = .next t) :
    (s.pending = [] ∧ t = s) ∨
    ∃ i rest, s.pending = i :: rest ∧
      ((∃ x, decode i = .ok x ∧ exec x (s.issuing i rest) = .next t) ∨
       (∃ e, decode i = .error (.wireError e) ∧ t = (s.issuing i rest).postOutcome (.error e))) := by
  cases hp : s.pending with
  | nil =>
    rw [step_idle hp] at h
    cases h
    exact .inl ⟨rfl, rfl⟩
  | cons i rest =>
    refine .inr ⟨i, rest, rfl, ?_⟩
    cases hd : decode i with
    | ok x => exact .inl ⟨x, rfl, step_decoded hp hd ▸ h⟩
    | error r =>
      obtain ⟨e, rfl, ht⟩ := rejected_next (step_rejected hp hd ▸ h)
      exact .inr ⟨e, rfl, ht⟩

/-! ## The invariant -/

/-- The invariant does not speak of the host's queue. -/
theorem State.Inv.issuing {s : State} (h : s.Inv) (i : Issue) (rest : List Issue) : (s.issuing i rest).Inv :=
  ⟨h.configLegal, h.withinCapacity, h.framesWf⟩

/-- Returning an error keeps the invariant: it holds no frame. -/
theorem State.Inv.postError {s : State} (h : s.Inv) (e : CodecError) : (s.postOutcome (.error e)).Inv where
  configLegal := h.configLegal
  withinCapacity := h.withinCapacity
  framesWf := List.forall_mem_append.2 ⟨h.framesWf, List.forall_mem_singleton.2 rfl⟩

/-- Every operation keeps the invariant: each part by what every operation keeps. -/
theorem State.Inv.of_exec {i : Instr} {s t : State} (hinv : s.Inv) (h : exec i s = .next t) : t.Inv where
  configLegal := exec_config h ▸ hinv.configLegal
  withinCapacity := exec_keeps_capacity h hinv.withinCapacity
  framesWf := by
    obtain ⟨r, hres, hwf⟩ := exec_result h
    exact hres ▸ List.forall_mem_append.2 ⟨hinv.framesWf, List.forall_mem_singleton.2 hwf⟩

/-- The power-on state of a legal configuration meets the invariant: every buffer is empty and nothing was returned (R34). -/
theorem State.Inv.ofConfig {c : Config} (hc : c.wf = true) : (State.ofConfig c).Inv where
  configLegal := by rwa [State.ofConfig_config]
  withinCapacity := by
    simp only [State.ofConfig, List.mem_map]
    rintro _ ⟨sc, -, rfl⟩
    cases c.rxCapacity <;> simp [fitsCapacity]
  framesWf := by simp [State.ofConfig]

/-! ## Refusals -/

/-- All the reasons for which `mk` is refused (R113). -/
theorem mk_refused {kind : Kind} {b : Nat} {u : Byte} {f : Fn} {exc : Bool} {body : Body} {s : State} {e : Refusal} :
    mk kind b u f exc body s = .refused e ↔
      (s.builders[b]? = none ∧ e = .operandOutOfRange) ∨
      (∃ bl, s.builders[b]? = some bl ∧ 255 < body.values.length ∧ e = .valuesTooLong) := by
  unfold mk
  cases h : s.builders[b]? with
  | none => simp [eq_comm]
  | some bl => by_cases hv : 255 < body.values.length <;> simp [hv, eq_comm]

/-- Why an RX_* operation is refused on the stream it reached as its owner: its own duties (R180, R182). -/
def streamRefusal (s : State) (st : Stream) : Instr → Option Refusal
  | .rxPush _ bs =>
    if bs = [] then some .operandOutOfRange
    else if fitsCapacity s.rxCapacity (st.buf.length + bs.length) = false then some .bufferOverflow
    else none
  | .rxDiscard _ k => if st.buf.length < k then some .discardPastEnd else none
  | _ => none

/-- All the reasons for which an operation that reaches a stream is refused: no such stream (R91), not its owner (R49), or
what the operation says itself. -/
theorem withStream_refused {n : Nat} {s : State} {act : Stream → Outcome} {e : Refusal} :
    withStream n s act = .refused e ↔
      (s.streams[n]? = none ∧ e = .operandOutOfRange) ∨
      (∃ st, s.streams[n]? = some st ∧
        ((st.owner ≠ s.issuer ∧ e = .notOwner) ∨ (st.owner = s.issuer ∧ act st = .refused e))) := by
  unfold withStream
  cases h : s.streams[n]? with
  | none => simp [eq_comm]
  | some st => by_cases ho : st.owner = s.issuer <;> simp [ho, eq_comm]

/-- All the reasons for which an RX_* operation is refused (R49, R91, R180 to R184). -/
theorem exec_stream_refused {i : Instr} {n : Nat} {s : State} {e : Refusal} (h : streamTarget i = some n) :
    exec i s = .refused e ↔
      (s.streams[n]? = none ∧ e = .operandOutOfRange) ∨
      (∃ st, s.streams[n]? = some st ∧
        ((st.owner ≠ s.issuer ∧ e = .notOwner) ∨ (st.owner = s.issuer ∧ streamRefusal s st i = some e))) := by
  cases i <;> simp only [streamTarget, Option.some.injEq, reduceCtorEq] at h <;> subst h <;>
    refine withStream_refused.trans (or_congr_right <| exists_congr fun st => and_congr_right fun _ =>
      or_congr_right <| and_congr_right fun _ => ?_)
  case rxPush n bs => simp only [streamRefusal]; split_ifs <;> simp
  case rxDecode n => simp [streamRefusal]
  case rxDiscard n k => simp only [streamRefusal]; split_ifs <;> simp
  case rxFlush n => simp [streamRefusal]
  case rxStatus n => simp [streamRefusal]

/-- The duties an RX_* operation checks itself depend on the capacity alone, beside the stream. -/
theorem streamRefusal_congr {s s' : State} (hc : s'.rxCapacity = s.rxCapacity) (st : Stream) (i : Instr) :
    streamRefusal s' st i = streamRefusal s st i := by
  cases i <;> simp only [streamRefusal, hc]

/-- A refusal's reason does not depend on the results returned before it. -/
theorem exec_refused_with_results {i : Instr} {s : State} {e : Refusal} (h : exec i s = .refused e) (rs : List Result) :
    exec i { s with results := rs } = .refused e := by
  rcases kind_cases i with ⟨b, u, hb⟩ | ⟨n, hs⟩ | rfl | ⟨hb, hs, hr⟩
  · obtain ⟨kind, f, exc, body, -, -, hmk⟩ := exec_build hb
    have hcases := mk_refused.1 (hmk s ▸ h)
    exact (hmk _).trans (mk_refused.2 hcases)
  · refine (exec_stream_refused hs).2 ?_
    rcases (exec_stream_refused hs).1 h with hnone | ⟨st, hst, hown | ⟨ho, href⟩⟩
    · exact .inl hnone
    · exact .inr ⟨st, hst, .inl hown⟩
    · exact .inr ⟨st, hst, .inr ⟨ho, streamRefusal_congr (s := s) rfl st i ▸ href⟩⟩
  · cases h
  · rcases exec_pure hb hs hr with ⟨g, hg⟩ | href
    · rw [hg] at h; cases h
    · rw [href] at h ⊢; exact h

/-- An operation that completes does so whatever results were returned before it, with the same effect and the same
result. -/
theorem exec_next_with_results {i : Instr} {s t : State} (h : exec i s = .next t) (rs : List Result) :
    ∃ r, t.results = s.results ++ [r] ∧ exec i { s with results := rs } = .next { t with results := rs ++ [r] } := by
  rcases kind_cases i with ⟨b, u, hb⟩ | ⟨n, hs⟩ | rfl | ⟨hb, hs, hr⟩
  · obtain ⟨kind, f, exc, body, -, -, hmk⟩ := exec_build hb
    rw [hmk] at h ⊢
    obtain ⟨bl, hbl, hvals, rfl⟩ := mk_next.1 h
    exact ⟨_, rfl, mk_next.2 ⟨bl, hbl, hvals, rfl⟩⟩
  · obtain ⟨st, bs, r, hst, ho, he, rfl⟩ := (exec_stream_next hs).1 h
    exact ⟨r, rfl, (exec_stream_next hs).2 ⟨st, bs, r, hst, ho, streamEffect_congr (s := s) rfl rfl st i ▸ he, rfl⟩⟩
  · cases h
    exact ⟨_, rfl, rfl⟩
  · rcases exec_pure hb hs hr with ⟨g, hg⟩ | href
    · rw [hg] at h ⊢
      cases h
      exact ⟨_, rfl, rfl⟩
    · rw [href] at h; cases h

/-! ## What an operation does not reach -/

/-- An operation that is neither a builder nor RESET leaves the tables, and does the same whatever they hold (R25, R40). -/
theorem exec_ignores_tables {i : Instr} {s t : State} (hb : buildTarget i = none) (hr : i ≠ .reset) (h : exec i s = .next t) :
    t.builders = s.builders ∧ ∀ bls : List Builder, exec i { s with builders := bls } = .next { t with builders := bls } := by
  cases hs : streamTarget i with
  | some n =>
    obtain ⟨st, bs, r, hst, ho, he, rfl⟩ := (exec_stream_next hs).1 h
    exact ⟨rfl, fun bls => (exec_stream_next hs).2
      ⟨st, bs, r, hst, ho, streamEffect_congr (s := s) rfl rfl st i ▸ he, rfl⟩⟩
  | none =>
    rcases exec_pure hb hs hr with ⟨g, hg⟩ | href
    · rw [hg] at h
      cases h
      exact ⟨rfl, fun bls => hg _⟩
    · rw [href] at h; cases h

/-- An operation that is neither an RX_* operation nor RESET leaves the buffers, and does the same whatever they hold (R27,
R40). -/
theorem exec_ignores_streams {i : Instr} {s t : State} (hs : streamTarget i = none) (hr : i ≠ .reset) (h : exec i s = .next t) :
    t.streams = s.streams ∧ ∀ sts : List Stream, exec i { s with streams := sts } = .next { t with streams := sts } := by
  cases hb : buildTarget i with
  | some p =>
    obtain ⟨kind, f, exc, body, -, -, hmk⟩ := exec_build hb
    rw [hmk] at h
    obtain ⟨bl, hbl, hvals, rfl⟩ := mk_next.1 h
    exact ⟨rfl, fun sts => (hmk _).trans (mk_next.2 ⟨bl, hbl, hvals, rfl⟩)⟩
  | none =>
    rcases exec_pure hb hs hr with ⟨g, hg⟩ | href
    · rw [hg] at h
      cases h
      exact ⟨rfl, fun sts => hg _⟩
    · rw [href] at h; cases h

/-- RX_STATUS leaves every stream as it was (R184). -/
theorem exec_rxStatus_streams {n : Nat} {s t : State} (h : exec (.rxStatus n) s = .next t) : t.streams = s.streams := by
  obtain ⟨st, bs, r, hst, -, he, rfl⟩ := (exec_stream_next rfl).1 h
  cases he
  rw [State.post_streams, State.setBuf_self hst]

end Sys2Proof.Machine

/-! ## The statements -/

namespace Sys2Proof.Proofs

open Sys2Proof.Machine

/-- Settles O12, by the cases of a step: an idle step changes nothing, and both executing and returning the error of a byte
of a frame keep the invariant. -/
theorem everyStepKeepsTheInvariant : Obligations.EveryStepKeepsTheInvariant := by
  intro s t hinv h
  rcases step_next h with ⟨-, rfl⟩ | ⟨i, rest, -, ⟨x, -, hx⟩ | ⟨e, -, rfl⟩⟩
  · exact hinv
  · exact (hinv.issuing i rest).of_exec hx
  · exact (hinv.issuing i rest).postError e

/-- Settles O7: neither what an operation does nor why it is refused depends on the results before it. -/
theorem resultsAreReturnedAndNotKept : Obligations.ResultsAreReturnedAndNotKept :=
  fun _ _ rs => ⟨fun _ h => exec_next_with_results h rs, fun _ h => exec_refused_with_results h rs⟩

/-- Settles O13, by the cases of a step: only executing could write the configuration, and no operation does. -/
theorem noStepWritesTheConfiguration : Obligations.NoStepWritesTheConfiguration := by
  intro s t h
  rcases step_next h with ⟨-, rfl⟩ | ⟨i, rest, -, ⟨x, -, hx⟩ | ⟨e, -, rfl⟩⟩
  · rfl
  · rw [exec_config hx, State.issuing_config]
  · rw [State.postOutcome_config, State.issuing_config]

/-- Settles O14: an operation of a kind that does not reach the tables, or the buffers, does the same whatever they hold. -/
theorem onlyBuildersReachTablesAndOnlyStreamsBuffers : Obligations.OnlyBuildersReachTablesAndOnlyStreamsBuffers :=
  fun _ _ _ hr h => ⟨fun hb => exec_ignores_tables hb hr h, fun hs => exec_ignores_streams hs hr h⟩

/-- Settles O53: an RX_* operation that completes writes the buffer of the stream it names and returns one result. -/
theorem streamOperationsChangeOneBufferOnly : Obligations.StreamOperationsChangeOneBufferOnly := by
  intro i n s t hs h
  have hconfig := exec_config h
  have hstatus : i = .rxStatus n → t.streams = s.streams := fun hi => exec_rxStatus_streams (hi ▸ h)
  obtain ⟨st, bs, r, -, -, -, rfl⟩ := (exec_stream_next hs).1 h
  refine ⟨rfl, hconfig, rfl, rfl, ⟨r, rfl⟩, ?_, fun m hm => ?_, hstatus⟩
  · simp
  · simp [List.getElem?_set_ne (Ne.symm hm)]

/-- Settles O1: the four clauses are the idle step, the executed issue and the three ways an issue is rejected. -/
theorem stepExecutesTheIssueAtTheHead : Obligations.StepExecutesTheIssueAtTheHead :=
  ⟨fun _ => step_idle, fun _ _ _ hp =>
    ⟨fun _ => step_decoded hp, step_rejected hp, step_rejected hp, fun _ => step_rejected hp⟩⟩

/-- Settles O9: every builder and every stream of the power-on state is fresh. -/
theorem powerOnStateIsClear : Obligations.PowerOnStateIsClear := by
  refine fun c => ⟨State.ofConfig_config c, ?_, ?_⟩ <;> simp only [State.ofConfig, List.mem_map]
  · rintro _ ⟨m, -, rfl⟩ u
    exact TidTable.last_fresh u
  · rintro _ ⟨sc, -, rfl⟩
    exact Stream.fresh_buf sc

/-- Settles O11: the power-on state of a legal configuration, and the default configuration is one. -/
theorem invariantHoldsAtPowerOn : Obligations.InvariantHoldsAtPowerOn :=
  ⟨fun _ => .ofConfig, .ofConfig rfl⟩

end Sys2Proof.Proofs
end

section
/-! PROOFS. The family of spec/20_memory.md. First when an operation completes, kind by kind; then that only RX_* reads the
issuing agent; then two builds in a row; last the statements themselves. -/

namespace Sys2Proof.Machine

/-! ## Completing or refused -/

/-- An answer is a next state or a refusal, never both: the block has no fault (R211). -/
theorem refused_iff_not_next (o : Outcome) : (∃ e, o = .refused e) ↔ ¬ ∃ t, o = .next t := by
  cases o with
  | next t => simp
  | refused e => simp
  | fault f => cases f

/-- `mk` completes on a builder that exists, for at most 255 values (R91, R113). -/
theorem mk_completes_iff {kind : Kind} {b : Nat} {u : Byte} {f : Fn} {exc : Bool} {body : Body} {s : State} :
    (∃ t, mk kind b u f exc body s = .next t) ↔ b < s.builders.length ∧ body.values.length ≤ 255 := by
  simp only [mk_next]
  constructor
  · rintro ⟨_, bl, hbl, hvals, -⟩
    exact ⟨(List.getElem?_eq_some_iff.1 hbl).1, hvals⟩
  · rintro ⟨hb, hvals⟩
    exact ⟨_, _, List.getElem?_eq_getElem hb, hvals, rfl⟩

/-- A builder operation is well formed where `mk` completes: its builder exists and its body holds at most 255 values. -/
theorem build_wf_iff {i : Instr} {b : Nat} {u : Byte} (h : buildTarget i = some (b, u)) :
    ∃ kind f exc body, (∀ s : State, exec i s = mk kind b u f exc body s) ∧
      ∀ c : Config, i.wf c = true ↔ b < c.nBuilders ∧ body.values.length ≤ 255 := by
  cases i <;> simp only [buildTarget, Option.some.injEq, Prod.mk.injEq, reduceCtorEq] at h <;> obtain ⟨rfl, rfl⟩ := h <;>
    exact ⟨_, _, _, _, fun _ => rfl, fun c => by simp [Instr.wf, Config.hasBuilder, valuesFit, Body.values]⟩

/-- A builder operation completes exactly where it is well formed. -/
theorem exec_build_completes_iff {i : Instr} {b : Nat} {u : Byte} (h : buildTarget i = some (b, u)) (s : State) :
    (∃ t, exec i s = .next t) ↔ i.wf s.config = true := by
  obtain ⟨kind, f, exc, body, hmk, hwf⟩ := build_wf_iff h
  have hlen : s.config.nBuilders = s.builders.length := List.length_map ..
  rw [hmk, mk_completes_iff, hwf, hlen]

/-- An RX_* operation is well formed where its stream exists and it pushes at least one byte (R91). -/
theorem stream_wf_iff {i : Instr} {n : Nat} (h : streamTarget i = some n) (c : Config) :
    i.wf c = true ↔ n < c.nStreams ∧ ∀ bs, i = .rxPush n bs → bs ≠ [] := by
  cases i <;> simp only [streamTarget, Option.some.injEq, reduceCtorEq] at h <;> subst h <;>
    simp [Instr.wf, Config.hasStream, Nat.one_le_iff_ne_zero]

/-- On the stream it reached, an RX_* operation has an effect where its own duties are kept: it pushes at least one byte
(R91), the push fits (R44) and the discard does not pass the end (R182). -/
theorem streamEffect_isSome_iff {i : Instr} {n : Nat} (h : streamTarget i = some n) (s : State) (st : Stream) :
    (∃ bs r, streamEffect s st i = some (bs, r)) ↔
      (∀ bs, i = .rxPush n bs → bs ≠ []) ∧
      (∀ bs c, i = .rxPush n bs → s.rxCapacity = some c → st.buf.length + bs.length ≤ c) ∧
      (∀ k, i = .rxDiscard n k → k ≤ st.buf.length) := by
  cases i <;> simp only [streamTarget, Option.some.injEq, reduceCtorEq] at h <;> subst h
  case rxPush n bs => cases hc : s.rxCapacity <;> simp [streamEffect, fitsCapacity, hc]
  all_goals simp [streamEffect]

/-- An RX_* operation completes where its stream exists, its owner issues it and it has an effect there (R49). -/
theorem exec_stream_completes_iff {i : Instr} {n : Nat} (h : streamTarget i = some n) (s : State) :
    (∃ t, exec i s = .next t) ↔
      ∃ st, s.streams[n]? = some st ∧ st.owner = s.issuer ∧ ∃ bs r, streamEffect s st i = some (bs, r) := by
  simp only [exec_stream_next h]
  constructor
  · rintro ⟨_, st, bs, r, hst, ho, he, -⟩
    exact ⟨st, hst, ho, bs, r, he⟩
  · rintro ⟨st, hst, ho, bs, r, he⟩
    exact ⟨_, st, bs, r, hst, ho, he, rfl⟩

/-- A function-byte row completes in every state (R63). -/
theorem wireLookup_completes (dir : Dir) (fb : Byte) (body : Bytes) (s : State) : ∃ t, wireLookup dir fb body s = .next t := by
  unfold wireLookup
  cases classify dir fb <;> exact ⟨_, rfl⟩

/-- An exception-code row completes in every state (R64). -/
theorem wireException_completes (x : Byte) (s : State) : ∃ t, wireException x s = .next t := by
  unfold wireException
  cases excDecode s.refExcQuirk x <;> exact ⟨_, rfl⟩

/-- An instruction that only answers completes exactly where it is well formed: only an encoder can be refused (R140,
R160). -/
theorem exec_answer_completes_iff {i : Instr} (hb : buildTarget i = none) (hs : streamTarget i = none) (s : State) :
    (∃ t, exec i s = .next t) ↔ i.wf s.config = true := by
  cases i <;> simp only [buildTarget, streamTarget, reduceCtorEq] at hb hs
  case encodeTcp fr => by_cases h : fr.wf = true <;> simp [exec, execEncodeTcp, Instr.wf, h]
  case encodeRtu fr => by_cases h : fr.wf = true <;> simp [exec, execEncodeRtu, Instr.wf, h]
  case crcCompute | crcCheck | decodeTcpReq | decodeTcpRsp | decodeRtuReq | decodeRtuRsp | reset =>
    exact iff_of_true ⟨_, rfl⟩ rfl
  case wireExceptionCodeIllegalFunction | wireExceptionCodeIllegalDataAddress | wireExceptionCodeIllegalDataValue |
      wireExceptionCodeSlaveDeviceFailure | wireExceptionCodeAcknowledge =>
    exact iff_of_true (wireException_completes ..) rfl
  all_goals
    unfold exec
    exact iff_of_true (wireLookup_completes ..) rfl

/-- An operation that reaches no stream has no duty but to be well formed. -/
theorem dutiesKept_of_no_stream {i : Instr} (hs : streamTarget i = none) (s : State) :
    Claims.DutiesKept i s ↔ i.wf s.config = true := by
  simp [Claims.DutiesKept, hs]

/-- The duties of an RX_* operation are those of its stream: that it exists, that its owner issues the operation, and what
the operation asks of it. -/
theorem dutiesKept_of_stream {i : Instr} {n : Nat} (h : streamTarget i = some n) (s : State) :
    Claims.DutiesKept i s ↔
      ∃ st, s.streams[n]? = some st ∧ st.owner = s.issuer ∧ ∃ bs r, streamEffect s st i = some (bs, r) := by
  have hlen : s.config.nStreams = s.streams.length := List.length_map ..
  simp only [Claims.DutiesKept, stream_wf_iff h, streamEffect_isSome_iff h, hlen]
  constructor
  · rintro ⟨⟨hn, hpush⟩, hduties⟩
    obtain ⟨ho, hfits, hend⟩ := hduties n _ h (List.getElem?_eq_getElem hn)
    exact ⟨_, List.getElem?_eq_getElem hn, ho, hpush, hfits, hend⟩
  · rintro ⟨st, hst, ho, hpush, hfits, hend⟩
    refine ⟨⟨(List.getElem?_eq_some_iff.1 hst).1, hpush⟩, fun m st' hm hst' => ?_⟩
    cases h.symm.trans hm
    cases hst.symm.trans hst'
    exact ⟨ho, hfits, hend⟩

/-- Every operation completes exactly where its duties are kept (R210). -/
theorem exec_completes_iff (i : Instr) (s : State) : (∃ t, exec i s = .next t) ↔ Claims.DutiesKept i s := by
  cases hs : streamTarget i with
  | some n => rw [exec_stream_completes_iff hs, dutiesKept_of_stream hs]
  | none =>
    rw [dutiesKept_of_no_stream hs]
    cases hb : buildTarget i with
    | some p => exact exec_build_completes_iff (b := p.1) (u := p.2) hb s
    | none => exact exec_answer_completes_iff hb hs s

/-! ## The issuing agent -/

/-- An RX_* operation by an agent that does not own the stream is refused as NotOwner (R49). -/
theorem exec_refused_of_not_owner {i : Instr} {n : Nat} {s : State} {st : Stream} (h : streamTarget i = some n)
    (hst : s.streams[n]? = some st) (ho : st.owner ≠ s.issuer) : exec i s = .refused .notOwner :=
  (exec_stream_refused h).2 (.inr ⟨st, hst, .inl ⟨ho, rfl⟩⟩)

/-- An operation that reaches no stream and completes does so under every agent, with the same effect (R49). -/
theorem exec_next_with_issuer {i : Instr} {s t : State} (hs : streamTarget i = none) (h : exec i s = .next t) (a : Agent) :
    exec i { s with issuer := a } = .next { t with issuer := a } := by
  rcases kind_cases i with ⟨b, u, hb⟩ | ⟨n, hn⟩ | rfl | ⟨hb, -, hr⟩
  · obtain ⟨kind, f, exc, body, -, -, hmk⟩ := exec_build hb
    rw [hmk] at h ⊢
    obtain ⟨bl, hbl, hvals, rfl⟩ := mk_next.1 h
    exact mk_next.2 ⟨bl, hbl, hvals, rfl⟩
  · rw [hs] at hn; cases hn
  · cases h
    rfl
  · rcases exec_pure hb hs hr with ⟨g, hg⟩ | href
    · rw [hg] at h ⊢
      cases h
      rfl
    · rw [href] at h; cases h

/-- An operation that reaches no stream and is refused is refused under every agent, for the same reason (R49). -/
theorem exec_refused_with_issuer {i : Instr} {s : State} {e : Refusal} (hs : streamTarget i = none)
    (h : exec i s = .refused e) (a : Agent) : exec i { s with issuer := a } = .refused e := by
  rcases kind_cases i with ⟨b, u, hb⟩ | ⟨n, hn⟩ | rfl | ⟨hb, -, hr⟩
  · obtain ⟨kind, f, exc, body, -, -, hmk⟩ := exec_build hb
    have hcases := mk_refused.1 (hmk s ▸ h)
    exact (hmk _).trans (mk_refused.2 hcases)
  · rw [hs] at hn; cases hn
  · cases h
  · rcases exec_pure hb hs hr with ⟨g, hg⟩ | href
    · rw [hg] at h; cases h
    · rw [href] at h ⊢; exact h

/-- The owners of the streams are part of the configuration (R23). -/
theorem State.owners_eq_config (s : State) : s.streams.map (·.owner) = s.config.streams.map (·.owner) := by
  simp [State.config, Function.comp_def]

/-- No operation changes an owner (R49): none writes the configuration. -/
theorem exec_owners {i : Instr} {s t : State} (h : exec i s = .next t) :
    t.streams.map (·.owner) = s.streams.map (·.owner) := by
  rw [State.owners_eq_config, exec_config h, ← State.owners_eq_config]

/-! ## Builds in a row -/

/-- The id after another is another one. -/
theorem nextTid_ne_self (prev : U16) : nextTid prev ≠ prev := by
  unfold nextTid
  split
  · next h => subst h; decide
  · bv_omega

/-- The id the claims give a TCP builder is the one after the last it issued (R111). -/
theorem idIssued_tcp {bl : Builder} (h : bl.mode = .tcp) (u : Byte) : Claims.idIssued bl u = nextTid (bl.tids.last u) := by
  simp only [Claims.idIssued, h]
  rfl

/-- A builder operation that completes on a given builder returns a frame with the id it allocated there, and records the
allocation. -/
theorem exec_build_allocates {i : Instr} {b : Nat} {u : Byte} {bl : Builder} {s t : State} (hi : buildTarget i = some (b, u))
    (hbl : s.builders[b]? = some bl) (h : exec i s = .next t) :
    ∃ fr, fr.head.transactionId = (bl.allocate u).1 ∧ t = (s.setBuilder b (bl.allocate u).2).post (.frame fr) := by
  obtain ⟨kind, f, exc, body, -, -, hmk⟩ := exec_build hi
  obtain ⟨bl', hbl', -, rfl⟩ := mk_next.1 (hmk s ▸ h)
  cases hbl.symm.trans hbl'
  exact ⟨_, rfl, rfl⟩

/-- A step that executes a builder operation on a TCP builder returns a frame with the id after the last for its unit, leaves
the rest of the port pending, and records that id in a builder still in TCP mode (R111). -/
theorem step_build_tcp {s t : State} {i : Issue} {rest : List Issue} {x : Instr} {b : Nat} {u : Byte} {bl : Builder}
    (hp : s.pending = i :: rest) (hd : decode i = .ok x) (hx : buildTarget x = some (b, u))
    (hbl : s.builders[b]? = some bl) (hm : bl.mode = .tcp) (h : step s = .next t) :
    ∃ fr bl', t.results = s.results ++ [.frame fr] ∧ t.pending = rest ∧ t.builders[b]? = some bl' ∧ bl'.mode = .tcp ∧
      fr.head.transactionId = nextTid (bl.tids.last u) ∧ bl'.tids.last u = nextTid (bl.tids.last u) := by
  rw [step_decoded hp hd] at h
  obtain ⟨fr, hid, rfl⟩ := exec_build_allocates hx (s := s.issuing i rest) hbl h
  refine ⟨fr, (bl.allocate u).2, rfl, rfl, ?_, ?_, ?_, ?_⟩
  · have hb := (List.getElem?_eq_some_iff.1 hbl).1
    simp [hb]
  · rw [Builder.allocate_mode, hm]
  · rw [hid, Builder.allocate_tcp hm]
  · rw [Builder.allocate_tcp hm, TidTable.last_record_self]

end Sys2Proof.Machine

/-! ## The statements -/

namespace Sys2Proof.Proofs

open Sys2Proof.Machine

/-- Settles O8: an operation completes exactly where its duties are kept, and is refused exactly where it does not
complete. -/
theorem completesExactlyWhenDutiesAreKept : Obligations.CompletesExactlyWhenDutiesAreKept :=
  fun i s => ⟨exec_completes_iff i s, (refused_iff_not_next _).trans (not_congr (exec_completes_iff i s))⟩

/-- Settles O29: two steps, each the build at the head of the port; the second finds the id of the first in the table. -/
theorem concurrentBuildsGetConsecutiveIds : Obligations.ConcurrentBuildsGetConsecutiveIds := by
  intro s s₁ s₂ i j x y rest b u bl hp hx hy hbx hby hbl hm h₁ h₂
  obtain ⟨f₁, bl₁, hr₁, hp₁, hbl₁, hm₁, hid₁, hlast₁⟩ := step_build_tcp hp hx hbx hbl hm h₁
  obtain ⟨f₂, bl₂, hr₂, -, hbl₂, -, hid₂, hlast₂⟩ := step_build_tcp hp₁ hy hby hbl₁ hm₁ h₂
  rw [hlast₁] at hid₂ hlast₂
  refine ⟨f₁, f₂, bl₂, ?_, hbl₂, ?_, ?_, ?_, ?_⟩
  · rw [hr₂, hr₁, List.append_assoc, List.singleton_append]
  · rw [hid₁, idIssued_tcp hm]
  · rw [hid₂, idIssued_tcp hm]
    rfl
  · rw [hid₁, hid₂]
    exact (nextTid_ne_self _).symm
  · exact hlast₂.trans hid₂.symm

/-- Settles O51: only RX_* reads the issuing agent, and the owners are part of the configuration. -/
theorem onlyTheOwnerReachesAStream : Obligations.OnlyTheOwnerReachesAStream :=
  ⟨fun _ _ _ _ hs hst ho => ⟨_, exec_refused_of_not_owner hs hst ho⟩,
    fun _ _ a hs => ⟨fun _ h => exec_next_with_issuer hs h a, fun _ h => exec_refused_with_issuer hs h a⟩,
    fun _ _ _ => exec_owners⟩

end Sys2Proof.Proofs
end

section
/-! PROOFS. The family of spec/30_encoding.md. First the operation table, read by the form of its operands, and the wire rows:
from these the encoder is the inverse of the decoder. Then what an operand outside its type and a reserved code give, and what
a function byte, an exception code and a body length are; last the statements themselves. -/

namespace Sys2Proof

/-! ## The operation table -/

/-- The codes whose operands are `b, unit` and two u16 (R90): each makes the instruction that it encodes. -/
theorem operationForm_twoWord {code : Byte}
    (h : code ∈ [0x10, 0x11, 0x12, 0x13, 0x14, 0x15, 0x1C, 0x1D, 0x1E, (0x1F : Byte)]) :
    ∃ k, operationForm code = some (twoWordForm k) ∧
      ∀ a b u x y, encode a (k b u x y) = opIssue a code (twoWordOperands b u x y) := by
  fin_cases h <;> exact ⟨_, rfl, fun _ _ _ _ _ => rfl⟩

/-- The codes whose operands are `b, unit`, two u16 and values. -/
theorem operationForm_twoWordValues {code : Byte} (h : code ∈ [0x16, (0x17 : Byte)]) :
    ∃ k, operationForm code = some (twoWordValuesForm k) ∧
      ∀ a b u x y vs, encode a (k b u x y vs) = opIssue a code (twoWordOperands b u x y ++ [.bytes vs]) := by
  fin_cases h <;> exact ⟨_, rfl, fun _ _ _ _ _ _ => rfl⟩

/-- The codes whose operands are `b, unit` and values. -/
theorem operationForm_values {code : Byte} (h : code ∈ [0x18, 0x19, 0x1A, (0x1B : Byte)]) :
    ∃ k, operationForm code = some (valuesForm k) ∧
      ∀ a b u vs, encode a (k b u vs) = opIssue a code [.num b, .num u.toNat, .bytes vs] := by
  fin_cases h <;> exact ⟨_, rfl, fun _ _ _ _ => rfl⟩

/-- The codes whose one operand is a byte sequence. -/
theorem operationForm_bytes {code : Byte} (h : code ∈ [0x01, 0x40, 0x41, 0x42, (0x43 : Byte)]) :
    ∃ k, operationForm code = some (bytesForm k) ∧ ∀ a bs, encode a (k bs) = opIssue a code [.bytes bs] := by
  fin_cases h <;> exact ⟨_, rfl, fun _ _ => rfl⟩

/-- The codes whose one operand is a frame. -/
theorem operationForm_frame {code : Byte} (h : code ∈ [0x30, (0x31 : Byte)]) :
    ∃ k, operationForm code = some (frameForm k) ∧ ∀ a fr, encode a (k fr) = opIssue a code [.frame fr] := by
  fin_cases h <;> exact ⟨_, rfl, fun _ _ => rfl⟩

/-- The codes whose one operand is a stream. -/
theorem operationForm_stream {code : Byte} (h : code ∈ [0x51, 0x53, (0x54 : Byte)]) :
    ∃ k, operationForm code = some (streamForm k) ∧ ∀ a n, encode a (k n) = opIssue a code [.num n] := by
  fin_cases h <;> exact ⟨_, rfl, fun _ _ => rfl⟩

/-- The codes of the table are those of R90 (R91). -/
theorem operationForm_isSome_iff : ∀ code : Byte, (operationForm code).isSome = true ↔ code ∈ Claims.operationCodes := by
  decide

/-- Every code of R90 has the operand form of one of the groups above, or one that it shares with no other code. -/
theorem operationCodes_cases : ∀ code ∈ Claims.operationCodes,
    code ∈ [0x10, 0x11, 0x12, 0x13, 0x14, 0x15, 0x1C, 0x1D, 0x1E, 0x1F] ∨ code ∈ [0x16, 0x17] ∨
    code ∈ [0x18, 0x19, 0x1A, 0x1B] ∨ code ∈ [0x01, 0x40, 0x41, 0x42, 0x43] ∨ code ∈ [0x30, 0x31] ∨
    code ∈ [0x51, 0x53, 0x54] ∨ code = 0x02 ∨ code = 0x20 ∨ code = 0x50 ∨ code = 0x52 ∨ code = 0x60 := by
  decide

/-- What the decoder has found when it reads an operation (R90). -/
theorem decodeOperation_ok {code : Byte} {ops : List Operand} {x : Instr} (h : decodeOperation code ops = .ok x) :
    ∃ form, operationForm code = some form ∧ form ops = some x := by
  unfold decodeOperation at h
  split at h
  · cases h
  next form hform =>
  split at h <;> cases h
  exact ⟨form, hform, ‹_›⟩

/-- An operation that decodes is the encoding of its instruction, by the form of its operands: each form accepts only the
operands that the encoder writes. -/
theorem encode_of_decodeOperation {code : Byte} {ops : List Operand} {x : Instr} (h : decodeOperation code ops = .ok x)
    (a : Agent) : encode a x = opIssue a code ops := by
  obtain ⟨form, hform, hx⟩ := decodeOperation_ok h
  have hcode := (operationForm_isSome_iff code).1 (hform ▸ rfl)
  rcases operationCodes_cases code hcode with hc | hc | hc | hc | hc | hc | rfl | rfl | rfl | rfl | rfl
  · obtain ⟨k, hk, henc⟩ := operationForm_twoWord hc
    cases hk.symm.trans hform
    obtain ⟨b, u, y, z, rfl, rfl⟩ := twoWordForm_some hx
    exact henc ..
  · obtain ⟨k, hk, henc⟩ := operationForm_twoWordValues hc
    cases hk.symm.trans hform
    obtain ⟨b, u, y, z, vs, rfl, rfl⟩ := twoWordValuesForm_some hx
    exact henc ..
  · obtain ⟨k, hk, henc⟩ := operationForm_values hc
    cases hk.symm.trans hform
    obtain ⟨b, u, vs, rfl, rfl⟩ := valuesForm_some hx
    exact henc ..
  · obtain ⟨k, hk, henc⟩ := operationForm_bytes hc
    cases hk.symm.trans hform
    obtain ⟨bs, rfl, rfl⟩ := bytesForm_some hx
    exact henc ..
  · obtain ⟨k, hk, henc⟩ := operationForm_frame hc
    cases hk.symm.trans hform
    obtain ⟨fr, rfl, rfl⟩ := frameForm_some hx
    exact henc ..
  · obtain ⟨k, hk, henc⟩ := operationForm_stream hc
    cases hk.symm.trans hform
    obtain ⟨n, rfl, rfl⟩ := streamForm_some hx
    exact henc ..
  · cases hform
    obtain ⟨bs, c, rfl, rfl⟩ := bytesWordForm_some hx
    rfl
  · cases hform
    obtain ⟨b, u, f, e, rfl, rfl⟩ := exceptionForm_some hx
    rfl
  · cases hform
    obtain ⟨n, bs, rfl, rfl⟩ := streamBytesForm_some hx
    rfl
  · cases hform
    obtain ⟨n, k, rfl, rfl⟩ := streamNumForm_some hx
    rfl
  · cases hform
    obtain ⟨rfl, rfl⟩ := noneForm_some hx
    rfl

/-! ## The wire rows -/

/-- A wire row is encoded by its function's code, with bit 7 for its exception flag (R62, R63). -/
theorem encode_wireInstr {dir : Dir} {exc : Bool} (h : dir = .req → exc = false) (a : Agent) (f : Fn) (body : Bytes) :
    encode a (wireInstr dir f exc body) = fnIssue a dir (f.code ||| (if exc then 0x80 else 0x00)) body := by
  cases dir with
  | req => obtain rfl := h rfl; cases f <;> rfl
  | rsp => cases exc <;> cases f <;> rfl

/-- A function byte that decodes is the encoding of its row. -/
theorem encode_of_decodeFunctionByte {dir : Dir} {fb : Byte} {ops : List Operand} {x : Instr}
    (h : decodeFunctionByte dir fb ops = .ok x) (a : Agent) :
    encode a x = { agent := a, port := .functionByte dir, code := fb, operands := ops } := by
  unfold decodeFunctionByte at h
  split at h
  · cases h
  next f exc hc =>
  obtain ⟨rfl, hreq⟩ := classify_ok _ _ _ _ hc
  split at h <;> cases h
  exact encode_wireInstr hreq a f _

/-- Without the quirk an exception is decoded from its own code alone (R64). -/
theorem excDecode_eq_some_iff (x : Byte) (e : Exc) : excDecode false x = some e ↔ x = e.code := by
  constructor
  · revert x; cases e <;> decide
  · rintro rfl; exact excDecode_code e

/-- An exception code that decodes is the encoding of its row. -/
theorem encode_of_decodeExceptionByte {c : Byte} {ops : List Operand} {x : Instr}
    (h : decodeExceptionByte c ops = .ok x) (a : Agent) :
    encode a x = { agent := a, port := .exceptionByte, code := c, operands := ops } := by
  unfold decodeExceptionByte at h
  split at h
  · cases h
  next e he =>
  obtain rfl := (excDecode_eq_some_iff c e).1 he
  split at h <;> cases h
  cases e <;> rfl

/-! ## Encoding and decoding -/

/-- Every instruction decodes from its encoding, whoever issues it (R90, R62 to R64). -/
theorem decode_encode (a : Agent) : ∀ x : Instr, decode (encode a x) = .ok x
  | .crcCompute _ => Laws.Encoded.crcCompute _ a
  | .crcCheck _ _ => Laws.Encoded.crcCheck _ _ a
  | .buildReqReadCoils _ _ _ _ => Laws.Encoded.buildReqReadCoils _ _ _ _ a
  | .buildReqReadDiscreteInputs _ _ _ _ => Laws.Encoded.buildReqReadDiscreteInputs _ _ _ _ a
  | .buildReqReadHoldingRegisters _ _ _ _ => Laws.Encoded.buildReqReadHoldingRegisters _ _ _ _ a
  | .buildReqReadInputRegisters _ _ _ _ => Laws.Encoded.buildReqReadInputRegisters _ _ _ _ a
  | .buildReqWriteSingleCoil _ _ _ _ => Laws.Encoded.buildReqWriteSingleCoil _ _ _ _ a
  | .buildReqWriteSingleRegister _ _ _ _ => Laws.Encoded.buildReqWriteSingleRegister _ _ _ _ a
  | .buildReqWriteMultipleCoils _ _ _ _ _ => Laws.Encoded.buildReqWriteMultipleCoils _ _ _ _ _ a
  | .buildReqWriteMultipleRegisters _ _ _ _ _ => Laws.Encoded.buildReqWriteMultipleRegisters _ _ _ _ _ a
  | .buildRspReadCoils _ _ _ => Laws.Encoded.buildRspReadCoils _ _ _ a
  | .buildRspReadDiscreteInputs _ _ _ => Laws.Encoded.buildRspReadDiscreteInputs _ _ _ a
  | .buildRspReadHoldingRegisters _ _ _ => Laws.Encoded.buildRspReadHoldingRegisters _ _ _ a
  | .buildRspReadInputRegisters _ _ _ => Laws.Encoded.buildRspReadInputRegisters _ _ _ a
  | .buildRspWriteSingleCoil _ _ _ _ => Laws.Encoded.buildRspWriteSingleCoil _ _ _ _ a
  | .buildRspWriteSingleRegister _ _ _ _ => Laws.Encoded.buildRspWriteSingleRegister _ _ _ _ a
  | .buildRspWriteMultipleCoils _ _ _ _ => Laws.Encoded.buildRspWriteMultipleCoils _ _ _ _ a
  | .buildRspWriteMultipleRegisters _ _ _ _ => Laws.Encoded.buildRspWriteMultipleRegisters _ _ _ _ a
  | .buildException _ _ _ _ => Laws.Encoded.buildException _ _ _ _ a
  | .encodeTcp _ => Laws.Encoded.encodeTcp _ a
  | .encodeRtu _ => Laws.Encoded.encodeRtu _ a
  | .decodeTcpReq _ => Laws.Encoded.decodeTcpReq _ a
  | .decodeTcpRsp _ => Laws.Encoded.decodeTcpRsp _ a
  | .decodeRtuReq _ => Laws.Encoded.decodeRtuReq _ a
  | .decodeRtuRsp _ => Laws.Encoded.decodeRtuRsp _ a
  | .rxPush _ _ => Laws.Encoded.rxPush _ _ a
  | .rxDecode _ => Laws.Encoded.rxDecode _ a
  | .rxDiscard _ _ => Laws.Encoded.rxDiscard _ _ a
  | .rxFlush _ => Laws.Encoded.rxFlush _ a
  | .rxStatus _ => Laws.Encoded.rxStatus _ a
  | .reset => Laws.Encoded.reset a
  | .wireReqReadCoils _ => Laws.Encoded.wireReqReadCoils _ a
  | .wireReqReadDiscreteInputs _ => Laws.Encoded.wireReqReadDiscreteInputs _ a
  | .wireReqReadMultipleHoldingRegisters _ => Laws.Encoded.wireReqReadMultipleHoldingRegisters _ a
  | .wireReqReadInputRegisters _ => Laws.Encoded.wireReqReadInputRegisters _ a
  | .wireReqWriteSingleCoil _ => Laws.Encoded.wireReqWriteSingleCoil _ a
  | .wireReqWriteSingleHoldingRegister _ => Laws.Encoded.wireReqWriteSingleHoldingRegister _ a
  | .wireReqWriteMultipleCoils _ => Laws.Encoded.wireReqWriteMultipleCoils _ a
  | .wireReqWriteMultipleHoldingRegisters _ => Laws.Encoded.wireReqWriteMultipleHoldingRegisters _ a
  | .wireRspReadCoils _ => Laws.Encoded.wireRspReadCoils _ a
  | .wireRspReadDiscreteInputs _ => Laws.Encoded.wireRspReadDiscreteInputs _ a
  | .wireRspReadMultipleHoldingRegisters _ => Laws.Encoded.wireRspReadMultipleHoldingRegisters _ a
  | .wireRspReadInputRegisters _ => Laws.Encoded.wireRspReadInputRegisters _ a
  | .wireRspWriteSingleCoil _ => Laws.Encoded.wireRspWriteSingleCoil _ a
  | .wireRspWriteSingleHoldingRegister _ => Laws.Encoded.wireRspWriteSingleHoldingRegister _ a
  | .wireRspWriteMultipleCoils _ => Laws.Encoded.wireRspWriteMultipleCoils _ a
  | .wireRspWriteMultipleHoldingRegisters _ => Laws.Encoded.wireRspWriteMultipleHoldingRegisters _ a
  | .wireRspExceptionReadCoils _ => Laws.Encoded.wireRspExceptionReadCoils _ a
  | .wireRspExceptionReadDiscreteInputs _ => Laws.Encoded.wireRspExceptionReadDiscreteInputs _ a
  | .wireRspExceptionReadMultipleHoldingRegisters _ => Laws.Encoded.wireRspExceptionReadMultipleHoldingRegisters _ a
  | .wireRspExceptionReadInputRegisters _ => Laws.Encoded.wireRspExceptionReadInputRegisters _ a
  | .wireRspExceptionWriteSingleCoil _ => Laws.Encoded.wireRspExceptionWriteSingleCoil _ a
  | .wireRspExceptionWriteSingleHoldingRegister _ => Laws.Encoded.wireRspExceptionWriteSingleHoldingRegister _ a
  | .wireRspExceptionWriteMultipleCoils _ => Laws.Encoded.wireRspExceptionWriteMultipleCoils _ a
  | .wireRspExceptionWriteMultipleHoldingRegisters _ => Laws.Encoded.wireRspExceptionWriteMultipleHoldingRegisters _ a
  | .wireExceptionCodeIllegalFunction => Laws.Encoded.wireExceptionCodeIllegalFunction a
  | .wireExceptionCodeIllegalDataAddress => Laws.Encoded.wireExceptionCodeIllegalDataAddress a
  | .wireExceptionCodeIllegalDataValue => Laws.Encoded.wireExceptionCodeIllegalDataValue a
  | .wireExceptionCodeSlaveDeviceFailure => Laws.Encoded.wireExceptionCodeSlaveDeviceFailure a
  | .wireExceptionCodeAcknowledge => Laws.Encoded.wireExceptionCodeAcknowledge a

/-- An issue that decodes is the encoding of its instruction by its agent, on each of the ports. -/
theorem encode_of_decode {i : Issue} {x : Instr} (h : decode i = .ok x) : encode i.agent x = i := by
  obtain ⟨a, port, code, ops⟩ := i
  cases port with
  | operation => exact encode_of_decodeOperation h a
  | functionByte dir => exact encode_of_decodeFunctionByte h a
  | exceptionByte => exact encode_of_decodeExceptionByte h a

/-! ## Operations the decoder rejects -/

/-- A code outside the table is rejected whatever its operands (R91). -/
theorem decodeOperation_reserved {code : Byte} (h : code ∉ Claims.operationCodes) (ops : List Operand) :
    decodeOperation code ops = .error .unknownOperation := by
  have hnone : operationForm code = none := by
    simpa using mt (operationForm_isSome_iff code).1 h
  simp [decodeOperation, hnone]

/-- A code of the table is never rejected as unknown (R91). -/
theorem decodeOperation_ne_unknown {code : Byte} (h : code ∈ Claims.operationCodes) (ops : List Operand) :
    decodeOperation code ops ≠ .error .unknownOperation := by
  obtain ⟨form, hform⟩ := Option.isSome_iff_exists.1 ((operationForm_isSome_iff code).2 h)
  cases hops : form ops <;> simp [decodeOperation, hform, hops]

/-- Operands that do not have the form of their code are out of range (R91). -/
theorem decodeOperation_operandOutOfRange {code : Byte} {form : List Operand → Option Instr} {ops : List Operand}
    (hform : operationForm code = some form) (hops : form ops = none) :
    decodeOperation code ops = .error .operandOutOfRange := by
  simp [decodeOperation, hform, hops]

/-- No number of 256 or more is a u8 (R91). -/
theorem asU8_eq_none {n : Nat} (h : 256 ≤ n) : asU8 n = none := if_neg (by omega)

/-- No number of 65536 or more is a u16 (R91). -/
theorem asU16_eq_none {n : Nat} (h : 65536 ≤ n) : asU16 n = none := if_neg (by omega)

/-- No number of 8 or more is a function: there are 8 (R29). -/
theorem asFn_eq_none {n : Nat} (h : 8 ≤ n) : asFn n = none := by
  obtain ⟨m, rfl⟩ := Nat.exists_eq_add_of_le' h
  rfl

/-- No number of 5 or more is an exception: there are 5 (R29). -/
theorem asExc_eq_none {n : Nat} (h : 5 ≤ n) : asExc n = none := by
  obtain ⟨m, rfl⟩ := Nat.exists_eq_add_of_le' h
  rfl

/-- Two words with a number outside its type are no operands of this form. -/
theorem twoWordForm_eq_none (k : Nat → Byte → U16 → U16 → Instr) (b : Nat) {u x y : Nat}
    (h : 256 ≤ u ∨ 65536 ≤ x ∨ 65536 ≤ y) : twoWordForm k [.num b, .num u, .num x, .num y] = none := by
  rcases h with h | h | h
  · simp [twoWordForm, asU8_eq_none h]
  · simp [twoWordForm, asU16_eq_none h]
  · simp [twoWordForm, asU16_eq_none h]

/-- Two words and values with a number outside its type are no operands of this form. -/
theorem twoWordValuesForm_eq_none (k : Nat → Byte → U16 → U16 → Bytes → Instr) (b : Nat) (vs : Bytes) {u x y : Nat}
    (h : 256 ≤ u ∨ 65536 ≤ x ∨ 65536 ≤ y) :
    twoWordValuesForm k [.num b, .num u, .num x, .num y, .bytes vs] = none := by
  rcases h with h | h | h
  · simp [twoWordValuesForm, asU8_eq_none h]
  · simp [twoWordValuesForm, asU16_eq_none h]
  · simp [twoWordValuesForm, asU16_eq_none h]

/-- A unit outside u8 makes no operands of this form. -/
theorem valuesForm_eq_none (k : Nat → Byte → Bytes → Instr) (b : Nat) (vs : Bytes) {u : Nat} (h : 256 ≤ u) :
    valuesForm k [.num b, .num u, .bytes vs] = none := by
  simp [valuesForm, asU8_eq_none h]

/-- A unit, function or exception outside its type makes no operands of this form. -/
theorem exceptionForm_eq_none (k : Nat → Byte → Fn → Exc → Instr) (b : Nat) {u f e : Nat} (h : 256 ≤ u ∨ 8 ≤ f ∨ 5 ≤ e) :
    exceptionForm k [.num b, .num u, .num f, .num e] = none := by
  rcases h with h | h | h
  · simp [exceptionForm, asU8_eq_none h]
  · simp [exceptionForm, asFn_eq_none h]
  · simp [exceptionForm, asExc_eq_none h]

/-- A candidate outside u16 makes no operands of this form. -/
theorem bytesWordForm_eq_none (k : Bytes → U16 → Instr) (bs : Bytes) {x : Nat} (h : 65536 ≤ x) :
    bytesWordForm k [.bytes bs, .num x] = none := by
  simp [bytesWordForm, asU16_eq_none h]

/-! ## Function bytes -/

/-- The bytes that classify are those R65 leaves legal (R63). -/
theorem classify_ok_iff_legal (dir : Dir) (fb : Byte) :
    (∃ f exc, classify dir fb = .ok (f, exc)) ↔ fb ∈ Claims.legalBytes dir := by
  constructor
  · rintro ⟨f, exc, h⟩
    obtain ⟨rfl, hreq⟩ := classify_ok _ _ _ _ h
    cases dir with
    | req => obtain rfl := hreq rfl; cases f <;> decide
    | rsp => cases exc <;> cases f <;> decide
  · intro h
    cases dir <;> unfold Claims.legalBytes at h <;> fin_cases h <;> exact ⟨_, _, rfl⟩

/-- Every other byte is an InvalidFunctionCode (R65). -/
theorem classify_illegal {dir : Dir} {fb : Byte} (h : fb ∉ Claims.legalBytes dir) :
    classify dir fb = .error (.invalidFunctionCode fb) := by
  cases hc : classify dir fb with
  | ok p => exact absurd ((classify_ok_iff_legal dir fb).1 ⟨p.1, p.2, hc⟩) h
  | error e => rw [classify_error dir fb e hc]

/-- `tcp_decode` returns the error of the function byte as soon as the head is complete (R141). -/
theorem tcpDecode_of_classify_error {dir : Dir} {bs : Bytes} {e : CodecError} (q : Bool) (hlen : 8 ≤ bs.length)
    (h : classify dir (byteAt bs 7) = .error e) : tcpDecode q dir bs = .error e := by
  simp [tcpDecode, Nat.not_lt.2 hlen, h]

/-- `rtu_decode` returns the error of the function byte as soon as it is there (R161). -/
theorem rtuDecode_of_classify_error {dir : Dir} {bs : Bytes} {e : CodecError} (q : Bool) (hlen : 2 ≤ bs.length)
    (h : classify dir (byteAt bs 1) = .error e) : rtuDecode q dir bs = .error e := by
  simp [rtuDecode, Nat.not_lt.2 hlen, h]

/-! ## Lengths -/

/-- A body of at most 255 values has 1 to 260 bytes (R31). -/
theorem Body.blen_range {b : Body} (h : b.values.length ≤ 255) : 1 ≤ b.blen ∧ b.blen ≤ 260 := by
  cases b <;> simp only [Body.values] at h <;> simp only [Body.blen] <;> omega

/-- A TCP frame is 8 bytes and its body (R70). -/
theorem tcpEncode_length (fr : Frame) : (tcpEncode fr).length = 8 + fr.body.blen := by
  simp [tcpEncode]; omega

/-- An RTU frame is 4 bytes and its body (R80). -/
theorem rtuEncode_length (fr : Frame) : (rtuEncode fr).length = 4 + fr.body.blen := by
  simp [rtuEncode, rtuPayload]; omega

/-- Peeking at a byte that may not be there yet: none where it is missing. -/
theorem peek_eq_map (bs : Bytes) (i k : Nat) :
    (if i + 1 ≤ bs.length then some ((byteAt bs i).toNat + k) else none) = bs[i]?.map (fun c => c.toNat + k) := by
  by_cases h : i + 1 ≤ bs.length
  · simp [h, byteAt, List.getElem?_eq_getElem (show i < bs.length by omega)]
  · simp [h, List.getElem?_eq_none (show bs.length ≤ i by omega)]

/-- A request with values announces 5 bytes and as many as its fifth byte says (R75). -/
theorem bodyLength_wmulti_req {f : Fn} (h : f.group = .wmulti) (exc : Bool) (body : Bytes) :
    bodyLength .req f exc body = body[4]?.map (fun c => c.toNat + 5) := by
  simp only [bodyLength, kindOf, shapeFor, h]
  exact peek_eq_map body 4 5

/-- A read response announces one byte and as many as that byte says (R76). -/
theorem bodyLength_read_rsp {f : Fn} (h : f.group = .read) (body : Bytes) :
    bodyLength .rsp f false body = body[0]?.map (fun c => c.toNat + 1) := by
  simp only [bodyLength, kindOf, shapeFor, h]
  exact peek_eq_map body 0 1

/-- The offsets of R77 count from the unit id, two before the body's. -/
theorem rtuBlen_eq_bodyLength (dir : Dir) (f : Fn) {exc : Bool} (h : dir = .req → exc = false) (u fb : Byte) (body : Bytes) :
    rtuBlen dir f exc (u :: fb :: body) = bodyLength dir f exc body := by
  cases dir with
  | req => obtain rfl := h rfl; cases f <;> simp [rtuBlen, bodyLength, kindOf, shapeFor, Fn.group]
  | rsp => cases exc <;> cases f <;> simp [rtuBlen, bodyLength, kindOf, shapeFor, Fn.group]

end Sys2Proof

namespace Sys2Proof.Machine

/-! ## What the instructions answer -/

/-- An operation whose code the table does not know, or whose operands do not have its form, is refused (R91). -/
theorem step_operation_rejected {s : State} {a : Agent} {code : Byte} {ops : List Operand} {rest : List Issue} {r : Reject}
    (h : s.pending = { agent := a, port := .operation, code := code, operands := ops } :: rest)
    (hd : decodeOperation code ops = .error r) : step s = rejected r (s.issuing (opIssue a code ops) rest) :=
  step_rejected h hd

/-- No duty that an RX_* operation checks itself gives the reason UnknownOperation (R210). -/
theorem streamRefusal_ne_unknownOperation (s : State) (st : Stream) (i : Instr) :
    streamRefusal s st i ≠ some .unknownOperation := by
  unfold streamRefusal
  split
  · split_ifs <;> simp
  · split_ifs <;> simp
  · simp

/-- No operation that executes is refused as unknown: only the decoder gives that reason (R210). -/
theorem exec_ne_unknownOperation (i : Instr) (s : State) : exec i s ≠ .refused .unknownOperation := by
  intro h
  rcases kind_cases i with ⟨b, u, hb⟩ | ⟨n, hs⟩ | rfl | ⟨hb, hs, hr⟩
  · obtain ⟨kind, f, exc, body, -, -, hmk⟩ := exec_build hb
    rcases mk_refused.1 (hmk s ▸ h) with ⟨-, he⟩ | ⟨bl, -, -, he⟩ <;> cases he
  · rcases (exec_stream_refused hs).1 h with ⟨-, he⟩ | ⟨st, -, ⟨-, he⟩ | ⟨-, he⟩⟩
    · cases he
    · cases he
    · exact streamRefusal_ne_unknownOperation s st i he
  · cases h
  · rcases exec_pure hb hs hr with ⟨g, hg⟩ | href
    · rw [hg] at h; cases h
    · rw [href] at h; cases h

/-- A function-byte row is answered with its function, flag, body shape and body length, and nothing else changes (R63). -/
theorem exec_wireInstr (s : State) (body : Bytes) (dir : Dir) (f : Fn) (exc : Bool) {shape : Shape} {len : Option Nat}
    (h : dir = .req → exc = false) (hshape : shapeFor (kindOf dir) f exc = shape) (hlen : bodyLength dir f exc body = len) :
    exec (wireInstr dir f exc body) s = .next (Claims.returning s (.lookup f exc shape len)) := by
  have hrow : exec (wireInstr dir f exc body) s = wireLookup dir (f.code ||| (if exc then 0x80 else 0x00)) body s := by
    cases dir with
    | req => obtain rfl := h rfl; cases f <;> rfl
    | rsp => cases exc <;> cases f <;> rfl
  have hc : classify dir (f.code ||| (if exc then 0x80 else 0x00)) = .ok (f, exc) :=
    classify_fbyte dir { transactionId := 0, protocolId := 0, length := 0, unitId := 0, function := f, isException := exc } h
  simp only [hrow, wireLookup, hc, hshape, hlen]
  rfl

/-- An exception code is answered with the exception it decodes to, and nothing else changes (R64). -/
theorem wireException_returns {x : Byte} {e : Exc} {s : State} (h : excDecode s.refExcQuirk x = some e) :
    wireException x s = .next (Claims.returning s (.exception e)) := by
  simp only [wireException, h]
  rfl

end Sys2Proof.Machine

/-! ## The statements -/

namespace Sys2Proof.Proofs

open Sys2Proof.Machine

/-- Settles O2: an issue that decodes is an encoding, and an encoding decodes. -/
theorem decodeAndEncodeAreInverse : Obligations.DecodeAndEncodeAreInverse :=
  fun i _ => ⟨fun h => (encode_of_decode h).symm, fun h => h ▸ decode_encode i.agent _⟩

/-- Settles O4: only the decoder gives the reason UnknownOperation, and it gives it for the codes outside the table. -/
theorem reservedOperationCodesAreRefused : Obligations.ReservedOperationCodesAreRefused := by
  intro s a code ops rest hp
  refine ⟨fun hc => step_operation_rejected hp (decodeOperation_reserved hc ops), fun hc => ?_⟩
  cases hd : decodeOperation code ops with
  | ok x => exact step_decoded hp hd ▸ exec_ne_unknownOperation x _
  | error r =>
    rw [step_operation_rejected hp hd]
    cases r with
    | unknownOperation => exact absurd hd (decodeOperation_ne_unknown hc ops)
    | operandOutOfRange => simp [rejected]
    | wireError e => simp [rejected]

/-- Settles O31: a byte that is not legal classifies as an error, which both decoders return. -/
theorem everyFunctionByteIsClassified : Obligations.EveryFunctionByteIsClassified := by
  refine fun dir fb => ⟨classify_ok_iff_legal dir fb, fun hfb q bs => ⟨?_, ?_⟩⟩
  · rintro hlen rfl
    exact tcpDecode_of_classify_error q hlen (classify_illegal hfb)
  · rintro hlen rfl
    exact rtuDecode_of_classify_error q hlen (classify_illegal hfb)

/-- Settles O3: each word is looked up in the table. -/
theorem sampleTableWordsDecode : Obligations.SampleTableWordsDecode :=
  ⟨rfl, rfl, rfl, rfl, rfl, rfl, rfl, rfl, rfl, rfl⟩

/-- Settles O5, by the form of the operands: no form accepts a number outside its type. -/
theorem operandsOutsideTheirTypeAreRefused : Obligations.OperandsOutsideTheirTypeAreRefused := by
  refine fun s a code b u x y vs rest => ⟨fun hc h hp => ?_, fun hc h hp => ?_, fun hc h hp => ?_, ?_, ?_⟩
  · obtain ⟨k, hk, -⟩ := operationForm_twoWord hc
    exact step_operation_rejected hp (decodeOperation_operandOutOfRange hk (twoWordForm_eq_none k b h))
  · obtain ⟨k, hk, -⟩ := operationForm_twoWordValues hc
    exact step_operation_rejected hp (decodeOperation_operandOutOfRange hk (twoWordValuesForm_eq_none k b vs h))
  · obtain ⟨k, hk, -⟩ := operationForm_values hc
    exact step_operation_rejected hp (decodeOperation_operandOutOfRange hk (valuesForm_eq_none k b vs h))
  · rintro rfl h hp
    exact step_operation_rejected hp (decodeOperation_operandOutOfRange rfl (exceptionForm_eq_none _ b h))
  · rintro rfl h hp
    exact step_operation_rejected hp (decodeOperation_operandOutOfRange rfl (bytesWordForm_eq_none _ vs h))

/-- Settles O30: both reasons are `mk`'s. -/
theorem buildersRefuseBadIndexAndLongValues : Obligations.BuildersRefuseBadIndexAndLongValues := by
  refine ⟨fun i b u s hi hb => ?_, fun b u x y vs s hb hvs => ?_⟩
  · obtain ⟨kind, f, exc, body, -, -, hmk⟩ := exec_build hi
    exact (hmk s).trans (mk_refused.2 (.inl ⟨List.getElem?_eq_none hb, rfl⟩))
  · have long : ∀ kind f exc body, body.values = vs → mk kind b u f exc body s = .refused .valuesTooLong :=
      fun _ _ _ _ hv => mk_refused.2 (.inr ⟨_, List.getElem?_eq_getElem hb, hv ▸ hvs, rfl⟩)
    exact ⟨long _ _ _ _ rfl, long _ _ _ _ rfl, long _ _ _ _ rfl, long _ _ _ _ rfl, long _ _ _ _ rfl, long _ _ _ _ rfl⟩

/-- Settles O32: the quirk is read for code 0x01 alone. -/
theorem exceptionCodesDecode : Obligations.ExceptionCodesDecode := by
  refine ⟨rfl, rfl, rfl, rfl, rfl, excDecode_eq_some_iff, fun q x hx => ?_, rfl, fun x hx => ?_⟩
  · simp only [List.mem_cons, List.not_mem_nil, or_false, not_or] at hx
    simp only [excDecode, hx, and_false, if_false]
  · simp only [excDecode, hx, and_false, if_false]

/-- Settles O33: the lengths of the parts added up, with the range of a body's length. -/
theorem wireLengths : Obligations.WireLengths := by
  intro fr hwf
  obtain ⟨-, -, hvals, hlen⟩ := (Frame.wf_iff fr).1 hwf
  have hrange := Body.blen_range hvals
  rw [encBody_length, tcpEncode_length, rtuEncode_length]
  omega

/-- Settles O45: the two ways to count give the same length, which the tables give by direction, flag and group. -/
theorem rtuLengthInferenceMatchesTheTables : Obligations.RtuLengthInferenceMatchesTheTables := by
  intro dir f exc u fb body hreq
  refine ⟨rtuBlen_eq_bodyLength dir f hreq u fb body, ?_, ?_, ?_, ?_, ?_⟩
  · rintro rfl (hg | hg) <;> simp [bodyLength, kindOf, shapeFor, hg]
  · rintro rfl hg
    exact bodyLength_wmulti_req hg exc body
  · rintro rfl rfl
    rfl
  · rintro rfl rfl hg
    exact bodyLength_read_rsp hg body
  · rintro rfl rfl (hg | hg) <;> simp [bodyLength, kindOf, shapeFor, hg]

/-- Settles O52: the stream is looked at before its owner, and the owner before the operation's own duties. -/
theorem streamOperationsRefuseBrokenDuties : Obligations.StreamOperationsRefuseBrokenDuties := by
  refine ⟨fun i n s hi hn => (exec_stream_refused hi).2 (.inl ⟨List.getElem?_eq_none hn, rfl⟩),
    fun i n s st hi hst ho => exec_refused_of_not_owner hi hst ho, fun s n st hst ho => ?_⟩
  have own : ∀ {i e}, streamTarget i = some n → streamRefusal s st i = some e → exec i s = .refused e :=
    fun hi he => (exec_stream_refused hi).2 (.inr ⟨st, hst, .inr ⟨ho, he⟩⟩)
  refine ⟨own rfl rfl, fun bs c hbs hc hover => own rfl ?_, fun k hk => own rfl ?_⟩
  · simp [streamRefusal, hbs, fitsCapacity, hc, hover]
  · simp [streamRefusal, hk]

/-- Settles O59: each row classifies its byte; the count byte is peeked at in a request with values and in a read response. -/
theorem functionByteRowsLookUpTheirByte : Obligations.FunctionByteRowsLookUpTheirByte := by
  intro s body
  have multi {f : Fn} (hf : f.group = .wmulti) := bodyLength_wmulti_req hf false body
  have read {f : Fn} (hf : f.group = .read) := bodyLength_read_rsp hf body
  have row := @exec_wireInstr s body
  exact ⟨row .req .readCoils false (fun _ => rfl) rfl rfl,
    row .req .readDiscreteInputs false (fun _ => rfl) rfl rfl,
    row .req .readMultipleHoldingRegisters false (fun _ => rfl) rfl rfl,
    row .req .readInputRegisters false (fun _ => rfl) rfl rfl,
    row .req .writeSingleCoil false (fun _ => rfl) rfl rfl,
    row .req .writeSingleHoldingRegister false (fun _ => rfl) rfl rfl,
    row .req .writeMultipleCoils false (fun _ => rfl) rfl (multi rfl),
    row .req .writeMultipleHoldingRegisters false (fun _ => rfl) rfl (multi rfl),
    row .rsp .readCoils false nofun rfl (read rfl),
    row .rsp .readDiscreteInputs false nofun rfl (read rfl),
    row .rsp .readMultipleHoldingRegisters false nofun rfl (read rfl),
    row .rsp .readInputRegisters false nofun rfl (read rfl),
    row .rsp .writeSingleCoil false nofun rfl rfl,
    row .rsp .writeSingleHoldingRegister false nofun rfl rfl,
    row .rsp .writeMultipleCoils false nofun rfl rfl,
    row .rsp .writeMultipleHoldingRegisters false nofun rfl rfl,
    row .rsp .readCoils true nofun rfl rfl,
    row .rsp .readDiscreteInputs true nofun rfl rfl,
    row .rsp .readMultipleHoldingRegisters true nofun rfl rfl,
    row .rsp .readInputRegisters true nofun rfl rfl,
    row .rsp .writeSingleCoil true nofun rfl rfl,
    row .rsp .writeSingleHoldingRegister true nofun rfl rfl,
    row .rsp .writeMultipleCoils true nofun rfl rfl,
    row .rsp .writeMultipleHoldingRegisters true nofun rfl rfl⟩

/-- Settles O60: the rows' codes decode to their exceptions; the quirk is read for code 0x01 alone. -/
theorem exceptionCodeRowsDecodeTheirCode : Obligations.ExceptionCodeRowsDecodeTheirCode := by
  intro s
  refine ⟨wireException_returns ?_, wireException_returns ?_, wireException_returns ?_, wireException_returns ?_,
    wireException_returns ?_⟩ <;> cases s.refExcQuirk <;> rfl

end Sys2Proof.Proofs
end

section
/-! PROOFS. The family of spec/40_crc.md. One round of the bit loop is given bit by bit; from this the loop is linear over
XOR, injective, and a plain shift where no feedback bit is set. A step is then its table form, the CRC's own bytes bring the
register to 0, and no two registers or bytes are confused; last the statements themselves. -/

namespace Sys2Proof

/-! ## The bit loop -/

/-- The bits of one round (R100): the bits shift down, and a set bit 0 flips those of the polynomial. -/
theorem getLsbD_crcBit (c : U16) (i : Nat) :
    (crcBit c).getLsbD i = (c.getLsbD (i + 1) ^^ (c.getLsbD 0 && (0xA001 : U16).getLsbD i)) := by
  unfold crcBit
  split <;> simp_all [Nat.add_comm]

/-- A round is linear over XOR. -/
theorem crcBit_xor (a b : U16) : crcBit (a ^^^ b) = crcBit a ^^^ crcBit b := by
  apply BitVec.eq_of_getLsbD_eq
  intro i _
  simp only [getLsbD_crcBit, BitVec.getLsbD_xor, Bool.and_xor_distrib_right, Bool.xor_assoc, Bool.xor_left_comm]

/-- A round loses nothing: the polynomial's bit 15 is set, so the bit that was shifted out stands in bit 15. -/
theorem crcBit_injective : Function.Injective crcBit := by
  intro a b h
  have hbit : ∀ i, (crcBit a).getLsbD i = (crcBit b).getLsbD i := fun i => by rw [h]
  simp only [getLsbD_crcBit] at hbit
  have h0 : a.getLsbD 0 = b.getLsbD 0 := by simpa using hbit 15
  apply BitVec.eq_of_getLsbD_eq
  intro i _
  cases i with
  | zero => exact h0
  | succ i => exact Bool.xor_left_inj.1 (h0 ▸ hbit i)

/-- The bit loop is linear over XOR. -/
theorem crcRounds_xor (n : Nat) (a b : U16) : crcRounds n (a ^^^ b) = crcRounds n a ^^^ crcRounds n b := by
  induction n generalizing a b with
  | zero => rfl
  | succ n ih => simp only [crcRounds, crcBit_xor, ih]

/-- The bit loop loses nothing. -/
theorem crcRounds_injective (n : Nat) : Function.Injective (crcRounds n) := by
  induction n with
  | zero => exact Function.injective_id
  | succ n ih => exact ih.comp crcBit_injective

/-- The bit loop only shifts where every bit it looks at is clear. -/
theorem crcRounds_eq_ushiftRight {n : Nat} {c : U16} (h : ∀ i < n, c.getLsbD i = false) : crcRounds n c = c >>> n := by
  induction n generalizing c with
  | zero => simp [crcRounds]
  | succ n ih =>
    have hbit : crcBit c = c >>> 1 := if_neg (by rw [h 0 (by omega)]; decide)
    have hlow : ∀ i < n, (c >>> 1).getLsbD i = false := fun i hi => by
      simpa [Nat.add_comm] using h (i + 1) (by omega)
    rw [crcRounds, hbit, ih hlow, ← BitVec.shiftRight_add, Nat.add_comm]

/-! ## The step -/

/-- A register is its high byte, in place, XOR its low byte. -/
theorem eq_high_xor_low (c : U16) : c = (c >>> 8 <<< 8) ^^^ (c.extractLsb' 0 8).setWidth 16 := by
  apply BitVec.eq_of_getLsbD_eq
  intro i hi
  by_cases h : i < 8
  · simp [h, hi]
  · simp [h, hi, show 8 + (i - 8) = i by omega]

/-- The step is the table's entry at the low byte XOR the input, XORed with the register's high byte (R100, G2). -/
theorem crcStep_eq_table (c : U16) (x : Byte) :
    crcStep c x = (c >>> 8) ^^^ crcRounds 8 ((c.extractLsb' 0 8 ^^^ x).setWidth 16) := by
  have hsplit : c ^^^ x.setWidth 16 = (c >>> 8 <<< 8) ^^^ (c.extractLsb' 0 8 ^^^ x).setWidth 16 := by
    rw [BitVec.setWidth_xor, ← BitVec.xor_assoc, ← eq_high_xor_low]
  have hhigh : crcRounds 8 (c >>> 8 <<< 8) = c >>> 8 := by
    rw [crcRounds_eq_ushiftRight fun i hi => by simp [hi]]
    apply BitVec.eq_of_getLsbD_eq
    intro i hi
    by_cases h : 8 + i < 16
    · simp [h]
    · simp [show 16 ≤ 8 + i by omega]
  rw [crcStep, hsplit, crcRounds_xor, hhigh]

/-- A step by the register's own low byte only shifts it out. -/
theorem crcStep_low (c : U16) : crcStep c (c.extractLsb' 0 8) = c >>> 8 := by
  have hzero : crcRounds 8 0#16 = 0#16 := by decide
  simp [crcStep_eq_table, hzero]

/-- Steps by a register's own bytes, low byte first, bring it to 0 (R104(b)). -/
theorem foldl_crcStep_le16 (c : U16) : (le16 c).foldl crcStep c = 0 := by
  have hhigh : c.extractLsb' 8 8 = (c >>> 8).extractLsb' 0 8 := by
    apply BitVec.eq_of_getLsbD_eq
    intro i hi
    simp [hi]
  calc (le16 c).foldl crcStep c
      = crcStep (crcStep c (c.extractLsb' 0 8)) (c.extractLsb' 8 8) := rfl
    _ = c >>> 8 >>> 8 := by rw [crcStep_low, hhigh, crcStep_low]
    _ = 0 := by rw [← BitVec.shiftRight_add]; exact BitVec.ushiftRight_eq_zero (Nat.le_refl 16)

/-- Steps by one byte keep different registers different. -/
theorem crcStep_injective_left (x : Byte) : Function.Injective (crcStep · x) :=
  fun _ _ h => (BitVec.xor_left_inj _).1 (crcRounds_injective 8 h)

/-- Steps by different bytes lead to different registers. -/
theorem crcStep_injective_right (c : U16) : Function.Injective (crcStep c) :=
  fun x y h => by
    have hw : x.setWidth 16 = y.setWidth 16 := (BitVec.xor_right_inj _).1 (crcRounds_injective 8 h)
    simpa using congrArg (BitVec.setWidth 8) hw

/-- Steps by one sequence keep different registers different. -/
theorem foldl_crcStep_injective (bs : Bytes) : Function.Injective (bs.foldl crcStep) := by
  induction bs with
  | nil => exact Function.injective_id
  | cons x bs ih => exact ih.comp (crcStep_injective_left x)

/-! ## The CRC of a sequence -/

/-- A sequence followed by its own CRC, low byte first, has the CRC 0 (R104(b)). -/
theorem crc16_append_own_crc (p : Bytes) : crc16 (p ++ le16 (crc16 p)) = 0 := by
  rw [crc16_append, foldl_crcStep_le16]

/-- Two sequences that differ in one byte have different CRCs (R104(c)). -/
theorem crc16_ne_of_byte_ne (p q : Bytes) {x y : Byte} (h : y ≠ x) : crc16 (p ++ y :: q) ≠ crc16 (p ++ x :: q) := by
  simp only [crc16_append, List.foldl_cons]
  exact (foldl_crcStep_injective q).ne ((crcStep_injective_right (crc16 p)).ne h)

/-- Changing one byte of a sequence changes its CRC (R104(c)). -/
theorem crc16_set_ne {p : Bytes} {i : Nat} {x y : Byte} (hx : p[i]? = some x) (h : y ≠ x) :
    crc16 (p.set i y) ≠ crc16 p := by
  obtain ⟨hi, rfl⟩ := List.getElem?_eq_some_iff.1 hx
  have hp : p = p.take i ++ p[i] :: p.drop (i + 1) := by simp
  have hset : p.set i y = p.take i ++ y :: p.drop (i + 1) := List.set_eq_take_cons_drop y hi
  rw [hset]
  conv_rhs => rw [hp]
  exact crc16_ne_of_byte_ne _ _ h

/-! ## The CRC of an RTU frame -/

/-- The two bytes of a u16 read low byte first are put back in the same order (R43). -/
theorem le16_rdLe16 (bs : Bytes) (n : Nat) : le16 (rdLe16 bs n) = [byteAt bs n, byteAt bs (n + 1)] := by
  simp only [le16, rdLe16, BitVec.extractLsb'_append_eq_left, BitVec.extractLsb'_append_eq_right]

/-- A sequence is all but its last two bytes, then these two as `le16` puts them (R43). -/
theorem slice_append_le16_rdLe16 {bs : Bytes} {n : Nat} (h : bs.length = n + 2) :
    slice bs 0 n ++ le16 (rdLe16 bs n) = bs := by
  have hdrop : bs.drop n = [byteAt bs n, byteAt bs (n + 1)] := by
    rw [List.drop_eq_getElem_cons (by omega), List.drop_eq_getElem_cons (by omega), List.drop_of_length_le (by omega)]
    simp [byteAt, h]
  rw [le16_rdLe16, ← hdrop, slice_zero, List.take_append_drop]

/-- The check of an RTU frame passes only where the CRC of all its bytes is 0 (R104(b), R161). -/
theorem crc16_eq_zero_of_crcCheck {bs : Bytes} {n : Nat} (hlen : bs.length = n + 2)
    (h : crcCheck (slice bs 0 n) (rdLe16 bs n) = true) : crc16 bs = 0 := by
  have hcrc : crc16 (slice bs 0 n) = rdLe16 bs n := of_decide_eq_true h
  rw [← slice_append_le16_rdLe16 hlen, ← hcrc, crc16_append_own_crc]

/-- `rtu_decode` returns InvalidChecksum as soon as the whole frame is there and its check fails (R161). -/
theorem rtuDecode_of_crcCheck_false {dir : Dir} {bs : Bytes} {f : Fn} {exc : Bool} {bl : Nat} (q : Bool)
    (hc : classify dir (byteAt bs 1) = .ok (f, exc)) (hbl : rtuBlen dir f exc bs = some bl) (hlen : 2 + bl + 2 ≤ bs.length)
    (hcrc : crcCheck (slice bs 0 (2 + bl)) (rdLe16 bs (2 + bl)) = false) :
    rtuDecode q dir bs = .error (.invalidChecksum (rdLe16 bs (2 + bl))) := by
  have h2 : ¬ bs.length < 2 := by omega
  have hbody : ¬ bs.length < 2 + bl := by omega
  simp [rtuDecode, h2, hc, hbl, hbody, Nat.not_lt.2 hlen, hcrc]

end Sys2Proof

/-! ## The statements -/

namespace Sys2Proof.Proofs

/-- Settles O17: the loop is linear, and it only shifts the high byte. -/
theorem crcStepEqualsItsTableForm : Obligations.CrcStepEqualsItsTableForm := crcStep_eq_table

/-- Settles O18: the two bytes of the register shift it out. -/
theorem crcResidueIsZero : Obligations.CrcResidueIsZero := crc16_append_own_crc

/-- Settles O19: a step is injective in the byte, and in the register for the steps that follow. -/
theorem crcDetectsAnyChangedByte : Obligations.CrcDetectsAnyChangedByte := fun _ _ _ _ => crc16_set_ne

/-- Settles O20: the CRC of a correct frame with its CRC bytes is 0, so after the change it is not, and the check fails. -/
theorem corruptedRtuByteRaisesInvalidChecksum : Obligations.CorruptedRtuByteRaisesInvalidChecksum := by
  intro q dir bs v i x y f exc hframe hx hy hc hc' hblen
  obtain ⟨f', exc', bl, -, hcf, hbl, -, hcrc, -, -, hn⟩ := rtuDecode_frame hframe
  obtain ⟨rfl, rfl⟩ : f = f' ∧ exc = exc' := by simpa [hc] using hcf
  have hlen : bs.length = 2 + bl + 2 := by omega
  have hlen' : (bs.set i y).length = 2 + bl + 2 := by rw [List.length_set, hlen]
  have hzero : crc16 bs = 0 := crc16_eq_zero_of_crcCheck hlen hcrc
  have hfail : crcCheck (slice (bs.set i y) 0 (2 + bl)) (rdLe16 (bs.set i y) (2 + bl)) = false := by
    rw [Bool.eq_false_iff]
    intro hpass
    exact crc16_set_ne hx hy (hzero ▸ crc16_eq_zero_of_crcCheck hlen' hpass)
  rw [hlen, Nat.add_sub_cancel]
  exact rtuDecode_of_crcCheck_false q hc' (hblen.trans hbl) hlen'.ge hfail

/-- Settles O15: the meaning returns the function, and the operation decodes from its encoding. -/
theorem crcComputeReturnsTheCrc : Obligations.CrcComputeReturnsTheCrc := by
  refine ⟨fun _ _ => rfl, fun a bs => decode_encode a (.crcCompute bs), ?_⟩
  decide +kernel

/-- Settles O16: the meaning returns the comparison, and the operation decodes from its encoding. -/
theorem crcCheckComparesTheCrc : Obligations.CrcCheckComparesTheCrc := by
  refine ⟨fun _ _ _ => rfl, fun a bs c => decode_encode a (.crcCheck bs c), ?_⟩
  decide +kernel

end Sys2Proof.Proofs
end

section
/-! PROOFS. The family of spec/41_builder.md. First what an allocation does to the builder it is made on, and what a build does
to the builders; then the ids a unit is given, one after the other, and those of any list of builds; then the frames of the 17
builders; last the statements themselves. -/

namespace Sys2Proof.Machine

/-! ## One allocation -/

/-- A TCP allocation gives the id after the last (R111). -/
theorem Builder.allocate_tcp_id {bl : Builder} (h : bl.mode = .tcp) (u : Byte) :
    (bl.allocate u).1 = nextTid (bl.tids.last u) := by rw [Builder.allocate_tcp h]

/-- A TCP allocation records the id it gives (R111). -/
theorem Builder.allocate_tcp_last {bl : Builder} (h : bl.mode = .tcp) (u : Byte) :
    (bl.allocate u).2.tids.last u = nextTid (bl.tids.last u) := by
  rw [Builder.allocate_tcp h, TidTable.last_record_self]

/-- An allocation leaves the entries of the other units, in either mode (R111, R112). -/
theorem Builder.allocate_last_of_ne (bl : Builder) {u v : Byte} (h : v ≠ u) :
    (bl.allocate u).2.tids.last v = bl.tids.last v := by
  cases hm : bl.mode with
  | tcp => rw [Builder.allocate_tcp hm, TidTable.last_record_of_ne _ _ _ _ h]
  | rtu => rw [Builder.allocate_rtu hm]

/-- The id after the last, as R111 says it. -/
theorem nextTid_of_ne_max {prev : U16} (h : prev ≠ 0xFFFF) : nextTid prev = prev + 1 := if_neg h

/-- An allocation is what the claims say of it, in either mode (R111, R112). -/
theorem Builder.allocate_eq_claims (bl : Builder) (u : Byte) :
    bl.allocate u = (Claims.idIssued bl u, Claims.builderAfter bl u) := by
  cases hm : bl.mode with
  | tcp => simp only [Builder.allocate_tcp hm, Claims.builderAfter, idIssued_tcp hm, hm]; rfl
  | rtu => simp only [Builder.allocate_rtu hm, Claims.builderAfter, Claims.idIssued, hm]

/-! ## One build -/

theorem State.setBuilder_getElem?_self {s : State} {b : Nat} {bl : Builder} (h : s.builders[b]? = some bl) (bl' : Builder) :
    (s.setBuilder b bl').builders[b]? = some bl' :=
  List.getElem?_set_self (List.getElem?_eq_some_iff.1 h).1

/-- A build on a TCP builder returns the id after the last for its unit and records it there (R111). -/
theorem exec_build_tcp {i : Instr} {b : Nat} {u : Byte} {bl : Builder} {s t : State} (hi : buildTarget i = some (b, u))
    (hbl : s.builders[b]? = some bl) (hm : bl.mode = .tcp) (h : exec i s = .next t) :
    ∃ fr bl', t.results = s.results ++ [.frame fr] ∧ t.builders[b]? = some bl' ∧ bl'.mode = .tcp ∧
      fr.head.transactionId = nextTid (bl.tids.last u) ∧ bl'.tids.last u = nextTid (bl.tids.last u) ∧
      ∀ v, v ≠ u → bl'.tids.last v = bl.tids.last v := by
  obtain ⟨fr, hid, rfl⟩ := exec_build_allocates hi hbl h
  exact ⟨fr, (bl.allocate u).2, rfl, State.setBuilder_getElem?_self hbl _, (bl.allocate_mode u).trans hm,
    hid.trans (Builder.allocate_tcp_id hm u), Builder.allocate_tcp_last hm u, fun v => bl.allocate_last_of_ne⟩

/-- A build for another unit or on another builder keeps a builder's mode and its entry for a unit (R111, R132). -/
theorem exec_build_keeps_other_entry {i : Instr} {b c : Nat} {u v : Byte} {bl : Builder} {s t : State}
    (hi : buildTarget i = some (c, v)) (hne : (c, v) ≠ (b, u)) (hbl : s.builders[b]? = some bl) (h : exec i s = .next t) :
    ∃ fr bl', t.results = s.results ++ [.frame fr] ∧ t.builders[b]? = some bl' ∧ bl'.mode = bl.mode ∧
      bl'.tids.last u = bl.tids.last u := by
  obtain ⟨blc, fr, hblc, -, rfl⟩ := exec_build_next hi h
  by_cases hcb : c = b
  · subst hcb
    cases hbl.symm.trans hblc
    have huv : u ≠ v := fun e => hne (by rw [e])
    exact ⟨fr, (bl.allocate v).2, rfl, State.setBuilder_getElem?_self hbl _, bl.allocate_mode v, bl.allocate_last_of_ne huv⟩
  · exact ⟨fr, bl, rfl, (List.getElem?_set_ne hcb).trans hbl, rfl, rfl⟩

/-! ## The ids of one unit, one after the other -/

/-- The id of the `k`-th build for a unit, counted from 0 (R131). -/
def nthTid (k : Nat) : U16 := BitVec.ofNat 16 (k % 65535 + 1)

theorem nthTid_toNat (k : Nat) : (nthTid k).toNat = k % 65535 + 1 := by
  simp only [nthTid, BitVec.toNat_ofNat]
  omega

/-- The first id is the one after "no id issued yet" (R24, R111). -/
theorem nthTid_zero : nthTid 0 = nextTid 0 := by decide

/-- Each id is the one after the id before it, across the wrap too. -/
theorem nthTid_succ (k : Nat) : nthTid (k + 1) = nextTid (nthTid k) := by
  apply BitVec.eq_of_toNat_eq
  by_cases hwrap : k % 65535 = 65534
  · have hmax : nthTid k = 0xFFFF := BitVec.eq_of_toNat_eq (by rw [nthTid_toNat, hwrap]; rfl)
    rw [nthTid_toNat, nextTid, if_pos hmax]
    change (k + 1) % 65535 + 1 = 1
    omega
  · have hk := nthTid_toNat k
    have hmax : nthTid k ≠ 0xFFFF := fun e => hwrap (by rw [e] at hk; exact (Nat.succ.inj hk).symm)
    rw [nextTid_of_ne_max hmax, BitVec.toNat_add, nthTid_toNat, hk]
    change (k + 1) % 65535 + 1 = (k % 65535 + 1 + 1) % 65536
    omega

/-- The ids of a unit that has issued none are `nextTid` iterated. -/
theorem iterate_nextTid (n : Nat) : List.iterate nextTid (nextTid 0) n = (List.range n).map nthTid := by
  have hiter : ∀ k, nextTid^[k] (nextTid 0) = nthTid k := by
    intro k
    induction k with
    | zero => exact nthTid_zero.symm
    | succ k ih => rw [Function.iterate_succ_apply', ih, nthTid_succ]
  rw [← List.range_map_iterate]
  simp only [hiter]

/-- Ids repeat with period 65535. -/
theorem nthTid_add_period (k : Nat) : nthTid (k + 65535) = nthTid k := by
  simp [nthTid]

/-- Two ids less than 65535 builds apart are different. -/
theorem nthTid_ne {j k : Nat} (hlt : j < k) (hnear : k < j + 65535) : nthTid j ≠ nthTid k := by
  intro e
  have h := congrArg BitVec.toNat e
  rw [nthTid_toNat, nthTid_toNat] at h
  omega

/-! ## Lists of builds -/

/-- A list is executed by executing its first instruction, then the others. -/
theorem execAll_cons_next {i : Instr} {is : List Instr} {s t : State} :
    Claims.execAll (i :: is) s = .next t ↔ ∃ s', exec i s = .next s' ∧ Claims.execAll is s' = .next t := by
  rw [Claims.execAll]
  cases exec i s with
  | next s' => simp
  | fault e => cases e
  | refused r => simp

theorem idsFor_cons_same {i : Instr} {b : Nat} {u : Byte} (h : buildTarget i = some (b, u)) (is : List Instr) (fr : Frame)
    (rs : List Result) :
    Claims.idsFor b u (i :: is) (.frame fr :: rs) = fr.head.transactionId :: Claims.idsFor b u is rs := by
  rw [Claims.idsFor, if_pos h]

theorem idsFor_cons_other {i : Instr} {b : Nat} {u : Byte} (h : buildTarget i ≠ some (b, u)) (is : List Instr) (fr : Frame)
    (rs : List Result) : Claims.idsFor b u (i :: is) (.frame fr :: rs) = Claims.idsFor b u is rs := by
  rw [Claims.idsFor, if_neg h]

/-- Among any builds, those for one unit of one TCP builder are given the ids that follow the last one recorded, one after
the other: `nextTid` iterated (R111, R131). -/
theorem execAll_builds {b : Nat} {u : Byte} (is : List Instr) {s t : State} {bl : Builder}
    (hbuilds : ∀ i ∈ is, (buildTarget i).isSome = true) (hbl : s.builders[b]? = some bl) (hm : bl.mode = .tcp)
    (h : Claims.execAll is s = .next t) :
    ∃ rs, t.results = s.results ++ rs ∧ rs.length = is.length ∧
      Claims.idsFor b u is rs =
        List.iterate nextTid (nextTid (bl.tids.last u)) (is.countP fun i => decide (buildTarget i = some (b, u))) := by
  induction is generalizing s bl with
  | nil =>
    cases h
    exact ⟨[], (List.append_nil _).symm, rfl, rfl⟩
  | cons i is ih =>
    obtain ⟨s', hi, hrest⟩ := execAll_cons_next.1 h
    obtain ⟨hbuild, hbuilds⟩ := List.forall_mem_cons.1 hbuilds
    by_cases hsame : buildTarget i = some (b, u)
    · obtain ⟨fr, bl', hres, hbl', hm', hid, hlast, -⟩ := exec_build_tcp hsame hbl hm hi
      obtain ⟨rs, ht, hlen, hids⟩ := ih hbuilds hbl' hm' hrest
      refine ⟨.frame fr :: rs, by simp [ht, hres], by simp [hlen], ?_⟩
      rw [idsFor_cons_same hsame, hids, hid, hlast, List.countP_cons_of_pos (by simpa using hsame), List.iterate]
    · obtain ⟨⟨c, v⟩, htarget⟩ := Option.isSome_iff_exists.1 hbuild
      have hne : (c, v) ≠ (b, u) := fun e => hsame (e ▸ htarget)
      obtain ⟨fr, bl', hres, hbl', hm', hlast⟩ := exec_build_keeps_other_entry htarget hne hbl hi
      obtain ⟨rs, ht, hlen, hids⟩ := ih hbuilds hbl' (hm'.trans hm) hrest
      refine ⟨.frame fr :: rs, by simp [ht, hres], by simp [hlen], ?_⟩
      rw [idsFor_cons_other hsame, hids, hlast, List.countP_cons_of_neg (by simpa using hsame)]

/-! ## The frames of the 17 builders -/

/-- `mk` on a builder that exists returns the frame of its parts with the id R111 and R112 give, and changes nothing but that
builder (R113). -/
theorem mk_builds {i : Instr} {kind : Kind} {b : Nat} {u : Byte} {f : Fn} {exc : Bool} {body : Body} {fr : U16 → Frame}
    (hmk : ∀ s, exec i s = mk kind b u f exc body s) (hvals : body.values.length ≤ 255)
    (hfr : ∀ tid, fr tid = { kind := kind, head := builtHead tid u f exc body, body := body }) : Claims.Builds i b u fr := by
  intro s bl hbl
  rw [hmk, hfr]
  refine mk_next.2 ⟨bl, hbl, hvals, ?_⟩
  rw [Builder.allocate_eq_claims]
  rfl

/-- A builder that makes a request, whose length field is `len`. -/
theorem builds_request {i : Instr} {b : Nat} {u : Byte} {f : Fn} {body : Body} {len : U16}
    (hmk : ∀ s, exec i s = mk .request b u f false body s) (hvals : body.values.length ≤ 255) (hlen : lengthFor body = len) :
    Claims.Builds i b u (Claims.requestFrame len u f body) :=
  mk_builds hmk hvals fun _ => hlen ▸ rfl

/-- A builder that makes a response, whose length field is `len`. -/
theorem builds_response {i : Instr} {b : Nat} {u : Byte} {f : Fn} {exc : Bool} {body : Body} {len : U16}
    (hmk : ∀ s, exec i s = mk .response b u f exc body s) (hvals : body.values.length ≤ 255) (hlen : lengthFor body = len) :
    Claims.Builds i b u (Claims.responseFrame len u f exc body) :=
  mk_builds hmk hvals fun _ => hlen ▸ rfl

theorem lengthFor_writeMultiReq (x y : U16) (vs : Bytes) :
    lengthFor (.writeMultiReq x y vs) = BitVec.ofNat 16 (7 + vs.length) := by
  rw [lengthFor, Body.blen, ← Nat.add_assoc]

theorem lengthFor_readRsp (vs : Bytes) : lengthFor (.readRsp vs) = BitVec.ofNat 16 (3 + vs.length) := by
  rw [lengthFor, Body.blen, ← Nat.add_assoc]

end Sys2Proof.Machine

/-! ## The statements -/

namespace Sys2Proof.Proofs

open Sys2Proof.Machine

/-- Settles O28, by induction over the list of builds: the ids of the unit are `nextTid` iterated from the entry 0, which is
the sequence of R131; its period and its distinctness are arithmetic modulo 65535. -/
theorem transactionIdSequence : Obligations.TransactionIdSequence := by
  intro is b u s t bl hbuilds hbl hm hzero h
  obtain ⟨rs, hres, hlen, hids⟩ := execAll_builds (u := u) is hbuilds hbl hm h
  rw [show bl.tids.last u = 0 from hzero, iterate_nextTid] at hids
  refine ⟨rs, hres, hlen, hids, ?_, ?_⟩ <;>
    simp only [hids, List.getElem?_map, Option.map_eq_some_iff, List.getElem?_eq_some_iff, List.length_range,
      List.getElem_range]
  · rintro j k _ _ ⟨_, ⟨-, rfl⟩, rfl⟩ ⟨_, ⟨-, rfl⟩, rfl⟩ hlt hnear
    exact nthTid_ne hlt hnear
  · rintro k _ ⟨_, ⟨hk, rfl⟩, rfl⟩
    exact ⟨k, ⟨by omega, rfl⟩, (nthTid_add_period k).symm⟩

/-- Settles O24: the id is `nextTid` of the entry, which then holds it. -/
theorem tcpAllocationRule : Obligations.TcpAllocationRule := by
  intro i b u s t bl hi hbl hm h
  obtain ⟨fr, bl', hres, hbl', -, hid, hlast, hother⟩ := exec_build_tcp hi hbl hm h
  refine ⟨fr, bl', hres, hbl', fun hmax => ?_, fun hmax => ?_, ?_, hlast.trans hid.symm, hother⟩
  · rw [hid]
    exact if_pos hmax
  · rw [hid]
    exact nextTid_of_ne_max hmax
  · rw [hid]
    exact nextTid_ne_zero _

/-- Settles O25: an RTU allocation gives 0 and leaves the builder, whatever its table holds, so `mk` makes the same frame. -/
theorem rtuModeLeavesTheTableAlone : Obligations.RtuModeLeavesTheTableAlone := by
  intro i b u s t bl hi hbl hm h
  obtain ⟨kind, f, exc, body, -, -, hmk⟩ := exec_build hi
  rw [hmk] at h
  obtain ⟨bl', hbl', hvals, rfl⟩ := mk_next.1 h
  cases hbl.symm.trans hbl'
  rw [Builder.allocate_rtu hm]
  obtain ⟨hb, rfl⟩ := List.getElem?_eq_some_iff.1 hbl
  refine ⟨List.set_getElem_self hb, _, rfl, rfl, fun tids => ?_⟩
  refine ⟨_, (hmk _).trans (mk_next.2 ⟨_, List.getElem?_set_self hb, hvals, rfl⟩), ?_⟩
  rw [Builder.allocate_rtu (bl := { mode := _, tids := tids }) hm]
  rfl

/-- Settles O26: the body of a build has the shape of its function, so the frame `mk` makes of it is WF. -/
theorem builtFramesAreWellFormed : Obligations.BuiltFramesAreWellFormed := by
  intro i b u s t hi h
  obtain ⟨kind, f, exc, body, hshape, hreq, hmk⟩ := exec_build hi
  obtain ⟨bl, -, hvals, rfl⟩ := mk_next.1 (hmk s ▸ h)
  have hwf := built_wf (u := u) (bl.allocate u).1 hshape hreq hvals
  obtain ⟨-, -, -, hlen⟩ := (Frame.wf_iff _).1 hwf
  exact ⟨_, rfl, hwf, rfl, rfl, hlen⟩

/-- Settles O27: a build replaces one builder by what the allocation leaves of it. -/
theorem buildersChangeOneTableEntryOnly : Obligations.BuildersChangeOneTableEntryOnly := by
  intro i b u s t hi h
  have hconfig := exec_config h
  obtain ⟨bl, fr, hbl, -, rfl⟩ := exec_build_next hi h
  refine ⟨rfl, hconfig, rfl, rfl, ⟨_, rfl⟩, List.length_set, fun b' hb' => List.getElem?_set_ne hb'.symm, ?_⟩
  rintro bl₀ bl' hbl₀ hbl'
  cases hbl.symm.trans hbl₀
  obtain rfl : (bl.allocate u).2 = bl' := Option.some.inj ((State.setBuilder_getElem?_self hbl _).symm.trans hbl')
  exact ⟨bl.allocate_mode u, fun v => bl.allocate_last_of_ne⟩

/-- Settles O21: each request builder is `mk` on its function and body. -/
theorem requestBuildersReturnTheirFrame : Obligations.RequestBuildersReturnTheirFrame :=
  fun _ _ x y vs =>
    have noValues : ([] : Bytes).length ≤ 255 := Nat.zero_le _
    ⟨builds_request (fun _ => rfl) noValues rfl, builds_request (fun _ => rfl) noValues rfl,
      builds_request (fun _ => rfl) noValues rfl, builds_request (fun _ => rfl) noValues rfl,
      builds_request (fun _ => rfl) noValues rfl, builds_request (fun _ => rfl) noValues rfl,
      fun hvs => builds_request (fun _ => rfl) hvs (lengthFor_writeMultiReq x y vs),
      fun hvs => builds_request (fun _ => rfl) hvs (lengthFor_writeMultiReq x y vs)⟩

/-- Settles O22: each response builder is `mk` on its function and body. -/
theorem responseBuildersReturnTheirFrame : Obligations.ResponseBuildersReturnTheirFrame :=
  fun _ _ _ _ vs =>
    have noValues : ([] : Bytes).length ≤ 255 := Nat.zero_le _
    ⟨fun hvs => builds_response (fun _ => rfl) hvs (lengthFor_readRsp vs),
      fun hvs => builds_response (fun _ => rfl) hvs (lengthFor_readRsp vs),
      fun hvs => builds_response (fun _ => rfl) hvs (lengthFor_readRsp vs),
      fun hvs => builds_response (fun _ => rfl) hvs (lengthFor_readRsp vs),
      builds_response (fun _ => rfl) noValues rfl, builds_response (fun _ => rfl) noValues rfl,
      builds_response (fun _ => rfl) noValues rfl, builds_response (fun _ => rfl) noValues rfl⟩

/-- Settles O23: the exception builder is `mk` on the original function, with the flag set. -/
theorem exceptionBuilderReturnsItsFrame : Obligations.ExceptionBuilderReturnsItsFrame :=
  fun _ _ _ _ => builds_response (fun _ => rfl) (Nat.zero_le _) rfl

end Sys2Proof.Proofs
end

section
/-! PROOFS. The family of spec/42_tcp_codec.md. First how bytes are read in a part of a sequence, and that a body read back lies
in its layout; then when a body parses and when it does not, in terms of the body length its head announces; then one rule for
each way `tcp_decode` ends; last the statements, each a short use of these rules. -/

namespace Sys2Proof

/-! ## Reading in a part of a sequence -/

theorem byteAt_take {i j : Nat} (w : Bytes) (h : i < j) : byteAt (w.take j) i = byteAt w i := by
  simp [byteAt, List.getD_eq_getElem?_getD, h]

theorem rdBe16_take {i j : Nat} (w : Bytes) (h : i + 1 < j) : rdBe16 (w.take j) i = rdBe16 w i := by
  simp [rdBe16, byteAt_take w (show i < j by omega), byteAt_take w h]

theorem byteAt_drop (w : Bytes) (k i : Nat) : byteAt (w.drop k) i = byteAt w (k + i) := by
  simp [byteAt, List.getD_eq_getElem?_getD, List.getElem?_drop]

/-- The two bytes of a u16 read high byte first are put back in the same order (R42). -/
theorem be16_rdBe16 (w : Bytes) (i : Nat) : be16 (rdBe16 w i) = [byteAt w i, byteAt w (i + 1)] := by
  simp only [be16, rdBe16, BitVec.extractLsb'_append_eq_left, BitVec.extractLsb'_append_eq_right]

/-- What is read at an offset stands there (R42). -/
theorem u16At_rdBe16 (w : Bytes) (k : Nat) : Claims.u16At w k (rdBe16 w k) := by
  have hlo := (byteAt w (k + 1)).isLt
  rw [Claims.u16At, rdBe16, BitVec.toNat_append, ← Nat.shiftLeft_add_eq_or_of_lt hlo, Nat.shiftLeft_eq]

/-! ## Bodies in their layout -/

/-- Where a body stands is counted from any earlier offset. -/
theorem bodyAt_drop (w : Bytes) (k : Nat) (b : Body) : Claims.bodyAt (w.drop k) 0 b ↔ Claims.bodyAt w k b := by
  cases b <;> simp [Claims.bodyAt, Claims.u16At, byteAt_drop, Nat.add_assoc]

/-- An encoded body stands in the layout of its shape (R72, R73). -/
theorem bodyAt_encBody_append {b : Body} (hv : b.values.length ≤ 255) (y : Bytes) : Claims.bodyAt (encBody b ++ y) 0 b := by
  have two (a c : U16) (y : Bytes) :
      Claims.u16At (be16 a ++ be16 c ++ y) 0 a ∧ Claims.u16At (be16 a ++ be16 c ++ y) 2 c := by
    have ha := u16At_rdBe16 (be16 a ++ be16 c ++ y) 0
    have hc := u16At_rdBe16 (be16 a ++ be16 c ++ y) 2
    rw [show rdBe16 (be16 a ++ be16 c ++ y) 0 = a by simp [rdBe16, be16]] at ha
    rw [show rdBe16 (be16 a ++ be16 c ++ y) 2 = c by simp [rdBe16, be16]] at hc
    exact ⟨ha, hc⟩
  cases b with
  | readReq a c => exact two a c y
  | writeSingle a v => exact two a v y
  | writeMultiRsp a c => exact two a c y
  | writeMultiReq a c vs =>
    obtain ⟨ha, hc⟩ := two a c (byteCount vs :: vs ++ y)
    refine ⟨by simpa [encBody] using ha, by simpa [encBody] using hc, ?_, ?_⟩
    · simpa [encBody, be16] using byteCount_toNat vs hv
    · simp [encBody, be16]
  | readRsp vs => exact ⟨byteCount_toNat vs hv, by simp [encBody]⟩
  | exceptionRsp e => rfl

/-- A body stands where its encoding begins. -/
theorem bodyAt_of_drop {w y : Bytes} {k : Nat} {b : Body} (hv : b.values.length ≤ 255) (h : w.drop k = encBody b ++ y) :
    Claims.bodyAt w k b :=
  (bodyAt_drop w k b).1 (h ▸ bodyAt_encBody_append hv y)

/-! ## When a body parses -/

/-- Two u16s parsed from four bytes encode to these bytes (R42, R73). -/
theorem be16_pair_rdBe16 {bd : Bytes} (h : bd.length = 4) : be16 (rdBe16 bd 0) ++ be16 (rdBe16 bd 2) = bd := by
  obtain ⟨w, x, y, z, rfl⟩ := List.length_eq_four.1 h
  simp [be16_rdBe16]

/-- Without the exception flag a body of the announced length parses, as the one that encodes to its bytes (R73, R74). -/
theorem exists_parseBody_plain {dir : Dir} {f : Fn} {bd : Bytes} (q : Bool)
    (h : bodyLength dir f false bd = some bd.length) : ∃ b, parseBody q dir f false bd = .ok b ∧ encBody b = bd := by
  cases dir <;> cases hg : f.group <;> simp only [bodyLength, shapeFor, kindOf, hg, Option.some.injEq] at h
  case req.read =>
    exact ⟨.readReq (rdBe16 bd 0) (rdBe16 bd 2), by simp [parseBody, hg, ← h], be16_pair_rdBe16 h.symm⟩
  case req.wsingle =>
    exact ⟨.writeSingle (rdBe16 bd 0) (rdBe16 bd 2), by simp [parseBody, hg, ← h], be16_pair_rdBe16 h.symm⟩
  case rsp.wsingle =>
    exact ⟨.writeSingle (rdBe16 bd 0) (rdBe16 bd 2), by simp [parseBody, hg, ← h], be16_pair_rdBe16 h.symm⟩
  case rsp.wmulti =>
    exact ⟨.writeMultiRsp (rdBe16 bd 0) (rdBe16 bd 2), by simp [parseBody, hg, ← h], be16_pair_rdBe16 h.symm⟩
  case req.wmulti =>
    obtain ⟨h5, hlen⟩ := Option.ite_none_right_eq_some.1 h
    rw [Option.some.injEq] at hlen
    have hok : ¬ (bd.length < 5 ∨ bd.length ≠ 5 + (byteAt bd 4).toNat) := by omega
    refine ⟨.writeMultiReq (rdBe16 bd 0) (rdBe16 bd 2) (bd.drop 5), ?_, ?_⟩
    · simp only [parseBody, hg, Bool.false_eq_true, if_false, if_neg hok, slice_to_end]
    · match bd, h5, hlen with
      | w :: x :: y :: z :: c :: vs, _, hlen =>
        have hc : c.toNat = vs.length := by simpa using hlen
        simp [encBody, be16_rdBe16, byteCount, ← hc]
  case rsp.read =>
    obtain ⟨h1, hlen⟩ := Option.ite_none_right_eq_some.1 h
    rw [Option.some.injEq] at hlen
    have hok : ¬ (bd.length < 1 ∨ bd.length ≠ 1 + (byteAt bd 0).toNat) := by omega
    refine ⟨.readRsp (bd.drop 1), ?_, ?_⟩
    · simp only [parseBody, hg, Bool.false_eq_true, if_false, if_neg hok, slice_to_end]
    · match bd, h1, hlen with
      | c :: vs, _, hlen =>
        have hc : c.toNat = vs.length := by simpa using hlen
        simp [encBody, byteCount, ← hc]

/-- A body of another length than the announced one is a mismatch (R74). -/
theorem parseBody_of_bodyLength_ne {dir : Dir} {f : Fn} {exc : Bool} {bd : Bytes} (q : Bool)
    (hreq : dir = .req → exc = false) (h : bodyLength dir f exc bd ≠ some bd.length) :
    parseBody q dir f exc bd = .error (.lengthMismatch bd.length) := by
  cases exc with
  | false =>
    cases dir <;> cases hg : f.group <;> simp [bodyLength, shapeFor, kindOf, hg] at h <;>
      simp only [parseBody, hg, Bool.false_eq_true, if_false] <;> exact if_pos (by omega)
  | true =>
    cases dir with
    | req => cases hreq rfl
    | rsp =>
      have h1 : bd.length ≠ 1 := by simpa [bodyLength, shapeFor, kindOf, eq_comm] using h
      simp [parseBody, h1]

/-- An exception announces one byte (R76). -/
theorem length_of_bodyLength_exception {dir : Dir} {f : Fn} {bd : Bytes} (hreq : dir = .req → true = false)
    (h : bodyLength dir f true bd = some bd.length) : bd.length = 1 := by
  cases dir with
  | req => cases hreq rfl
  | rsp => exact (Option.some.inj h).symm

/-- An exception body is one byte, the code of the exception it gives (R74). -/
theorem parseBody_exception {q : Bool} {dir : Dir} {f : Fn} {bd : Bytes} {b : Body} :
    parseBody q dir f true bd = .ok b ↔ bd.length = 1 ∧ ∃ e, excDecode q (byteAt bd 0) = some e ∧ b = .exceptionRsp e := by
  by_cases h1 : bd.length = 1
  · cases hx : excDecode q (byteAt bd 0) <;> simp [parseBody, h1, hx, eq_comm]
  · simp [parseBody, h1]

/-- An exception body whose code is unknown is an UnrecognizedExceptionCode (R74). -/
theorem parseBody_unrecognized {q : Bool} {bd : Bytes} (dir : Dir) (f : Fn) (h1 : bd.length = 1)
    (hx : excDecode q (byteAt bd 0) = none) :
    parseBody q dir f true bd = .error (.unrecognizedExceptionCode (byteAt bd 0)) := by
  simp [parseBody, h1, hx]

/-- Only an exception body has an unknown exception code (R74). -/
theorem exception_of_parseBody_unrecognized {q : Bool} {dir : Dir} {f : Fn} {exc : Bool} {bd : Bytes} {x : Byte}
    (h : parseBody q dir f exc bd = .error (.unrecognizedExceptionCode x)) : exc = true := by
  cases exc with
  | true => rfl
  | false =>
    by_cases hl : bodyLength dir f false bd = some bd.length
    · obtain ⟨b, hb, -⟩ := exists_parseBody_plain q hl
      rw [hb] at h; cases h
    · rw [parseBody_of_bodyLength_ne q (fun _ => rfl) hl] at h; cases h

/-- A body that parses without the exception flag is the one that encodes to its bytes (R73, R74). -/
theorem encBody_of_parseBody {q : Bool} {dir : Dir} {f : Fn} {bd : Bytes} {b : Body}
    (h : parseBody q dir f false bd = .ok b) : encBody b = bd := by
  by_cases hl : bodyLength dir f false bd = some bd.length
  · obtain ⟨b', hb', henc⟩ := exists_parseBody_plain q hl
    rw [hb'] at h; cases h; exact henc
  · rw [parseBody_of_bodyLength_ne q (fun _ => rfl) hl] at h; cases h

/-- A body of the announced length parses, unless it is an exception body with an unknown code (R74). -/
theorem exists_parseBody {q : Bool} {dir : Dir} {f : Fn} {exc : Bool} {bd : Bytes} (hreq : dir = .req → exc = false)
    (h : bodyLength dir f exc bd = some bd.length) (hx : exc = true → excDecode q (byteAt bd 0) ≠ none) :
    ∃ b, parseBody q dir f exc bd = .ok b := by
  cases exc with
  | false => exact (exists_parseBody_plain q h).imp fun _ => And.left
  | true =>
    obtain ⟨e, he⟩ := Option.ne_none_iff_exists'.1 (hx rfl)
    exact ⟨_, parseBody_exception.2 ⟨length_of_bodyLength_exception hreq h, e, he, rfl⟩⟩

/-- What parses from the bytes at an offset is the body a decode reads there (R72, R74). -/
theorem bodyRead_of_parseBody {q : Bool} {dir : Dir} {f : Fn} {exc : Bool} {w bd y : Bytes} {k : Nat} {b : Body}
    (hreq : dir = .req → exc = false) (hw : w.drop k = bd ++ y) (h : parseBody q dir f exc bd = .ok b) :
    Claims.bodyRead q dir f exc w k b := by
  obtain ⟨-, hshape, hvals⟩ := parseBody_ok hreq h
  refine ⟨hshape, ?_, ?_⟩
  · rintro rfl
    exact bodyAt_of_drop hvals (encBody_of_parseBody h ▸ hw)
  · rintro rfl
    obtain ⟨hlen, e, he, hb⟩ := parseBody_exception.1 h
    have hfirst : byteAt w k = byteAt bd 0 := by
      rw [← byteAt_append_left bd y 0 (by omega), ← hw, byteAt_drop, Nat.add_zero]
    exact ⟨e, hfirst ▸ he, hb⟩

/-- With the quirk no exception code decodes to IllegalFunction (R64). -/
theorem excDecode_quirk_ne_illegalFunction (x : Byte) : excDecode true x ≠ some .illegalFunction := by
  by_cases hx : x = 0x01
  · subst hx; decide
  · simp only [excDecode, hx, and_false, if_false]
    split_ifs <;> simp

/-- With the quirk no body parses as IllegalFunction (R64, R74). -/
theorem parseBody_quirk_ne_illegalFunction {dir : Dir} {f : Fn} {exc : Bool} {bd : Bytes} :
    parseBody true dir f exc bd ≠ .ok (.exceptionRsp .illegalFunction) := by
  intro h
  cases exc with
  | false =>
    have hshape := (parseBody_ok (fun _ => rfl) h).2.1
    cases dir <;> cases f <;> cases hshape
  | true =>
    obtain ⟨-, e, he, hb⟩ := parseBody_exception.1 h
    cases hb
    exact excDecode_quirk_ne_illegalFunction _ he

/-! ## Function bytes in their direction -/

/-- A legal byte classifies as the function and the flag it is made of, and a request carries no flag (R63, R65). -/
theorem classify_legal {dir : Dir} {fb : Byte} {f : Fn} {exc : Bool} (hfb : fb = f.code ||| (if exc then 0x80 else 0x00))
    (hl : fb ∈ Claims.legalBytes dir) : classify dir fb = .ok (f, exc) := by
  have hreq : dir = .req → exc = false := by
    rintro rfl
    cases exc
    · rfl
    · subst hfb; revert hl; cases f <;> decide
  subst hfb
  exact classify_fbyte dir
    { transactionId := 0, protocolId := 0, length := 0, unitId := 0, function := f, isException := exc } hreq

/-- The flag of a byte that classifies is its bit 7 (R63). -/
theorem classify_flag {dir : Dir} {fb : Byte} {f : Fn} {exc : Bool} (h : classify dir fb = .ok (f, exc)) :
    exc = fb.getLsbD 7 := by
  obtain ⟨rfl, -⟩ := classify_ok _ _ _ _ h
  cases exc <;> cases f <;> rfl

/-! ## How `tcp_decode` ends -/

/-- The outcome `tcp_decode` gives a frame that is there in full, from what its body parses as (R141). -/
def tcpParsed (dir : Dir) (bs : Bytes) (f : Fn) (exc : Bool) : Except BodyError Body → DecodeOutcome
  | .error (.lengthMismatch _) => .error (.lengthMismatch (rdBe16 bs 4))
  | .error (.unrecognizedExceptionCode x) => .error (.unrecognizedExceptionCode x)
  | .ok body =>
    .frame
      { kind := kindOf dir,
        head := { transactionId := rdBe16 bs 0, protocolId := rdBe16 bs 2, length := rdBe16 bs 4,
                  unitId := byteAt bs 6, function := f, isException := exc },
        body := body }
      (6 + (rdBe16 bs 4).toNat)

section
variable {dir : Dir} {bs : Bytes} {f : Fn} {exc : Bool} (q : Bool)

/-- Fewer than 8 bytes are Incomplete (R141). -/
theorem tcpDecode_of_head_missing (h : bs.length < 8) : tcpDecode q dir bs = .incomplete := by
  simp [tcpDecode, h]

variable (hc : classify dir (byteAt bs 7) = .ok (f, exc))
include hc

/-- A length below 2 is a mismatch (R141, R143). -/
theorem tcpDecode_of_length_lt_two (hlen : 8 ≤ bs.length) (h : (rdBe16 bs 4).toNat < 2) :
    tcpDecode q dir bs = .error (.lengthMismatch (rdBe16 bs 4)) := by
  simp [tcpDecode, Nat.not_lt.2 hlen, hc, h]

variable (htwo : 2 ≤ (rdBe16 bs 4).toNat)
include htwo

/-- A frame that is not there in full is Incomplete (R141). -/
theorem tcpDecode_of_body_missing (h : bs.length < 6 + (rdBe16 bs 4).toNat) : tcpDecode q dir bs = .incomplete := by
  have hbuf : bs.length < 8 + ((rdBe16 bs 4).toNat - 2) := by omega
  simp [tcpDecode, hc, Nat.not_lt.2 htwo, hbuf]

variable (hbuf : 6 + (rdBe16 bs 4).toNat ≤ bs.length)
include hbuf

/-- A frame that is there in full ends as its body parses (R141). -/
theorem tcpDecode_of_body_present : tcpDecode q dir bs =
    tcpParsed dir bs f exc (parseBody q dir f exc ((bs.drop 8).take ((rdBe16 bs 4).toNat - 2))) := by
  have hhead : ¬ bs.length < 8 := by omega
  have hn : 8 + ((rdBe16 bs 4).toNat - 2) = 6 + (rdBe16 bs 4).toNat := by omega
  have hslice : slice bs 8 (6 + (rdBe16 bs 4).toNat) = (bs.drop 8).take ((rdBe16 bs 4).toNat - 2) := by
    rw [← hn, slice, Nat.add_sub_cancel_left]
  simp only [tcpDecode, if_neg hhead, hc, if_neg (Nat.not_lt.2 htwo), hn, if_neg (Nat.not_lt.2 hbuf), hslice]
  rfl

end

/-- `tcp_decode` raises UnrecognizedExceptionCode only on a function byte with the exception flag (R141, R142). -/
theorem tcpDecode_unrecognized {q : Bool} {dir : Dir} {bs : Bytes} {x : Byte}
    (h : tcpDecode q dir bs = .error (.unrecognizedExceptionCode x)) : ∃ f, classify dir (byteAt bs 7) = .ok (f, true) := by
  unfold tcpDecode at h
  split at h
  · cases h
  split at h
  · next hc => cases h; cases classify_error _ _ _ hc
  next f exc hc =>
  split at h
  · cases h
  split at h
  · cases h
  split at h
  · cases h
  · next hp => exact ⟨f, exception_of_parseBody_unrecognized hp ▸ hc⟩
  · cases h

/-- `rtu_decode` raises UnrecognizedExceptionCode only on a function byte with the exception flag (R161, R162). -/
theorem rtuDecode_unrecognized {q : Bool} {dir : Dir} {bs : Bytes} {x : Byte}
    (h : rtuDecode q dir bs = .error (.unrecognizedExceptionCode x)) : ∃ f, classify dir (byteAt bs 1) = .ok (f, true) := by
  unfold rtuDecode at h
  split at h
  · cases h
  split at h
  · next hc => cases h; cases classify_error _ _ _ hc
  next f exc hc =>
  split at h
  · cases h
  split at h
  · cases h
  split at h
  · cases h
  split at h
  · cases h
  split at h
  · cases h
  · next hp => exact ⟨f, exception_of_parseBody_unrecognized hp ▸ hc⟩
  · cases h

/-! ## Decoding what ENCODE_TCP writes -/

@[simp] theorem rdBe16_tcpEncode_transactionId (fr : Frame) : rdBe16 (tcpEncode fr) 0 = fr.head.transactionId :=
  hi_append_lo fr.head.transactionId

@[simp] theorem rdBe16_tcpEncode_protocolId (fr : Frame) : rdBe16 (tcpEncode fr) 2 = fr.head.protocolId :=
  hi_append_lo fr.head.protocolId

@[simp] theorem rdBe16_tcpEncode_length (fr : Frame) : rdBe16 (tcpEncode fr) 4 = fr.head.length :=
  hi_append_lo fr.head.length

@[simp] theorem drop_tcpEncode (fr : Frame) : (tcpEncode fr).drop 8 = encBody fr.body := rfl

/-- The function byte of a WF value classifies back in the direction of its kind (R32, R63). -/
theorem classify_fbyte_of_wf {fr : Frame} (hwf : fr.wf = true) :
    classify (dirOf fr.kind) (fbyte fr.head) = .ok (fr.head.function, fr.head.isException) := by
  obtain ⟨-, hreq, -, -⟩ := (Frame.wf_iff fr).1 hwf
  refine classify_fbyte _ _ fun hd => hreq ?_
  cases hk : fr.kind
  · rfl
  · rw [hk] at hd; cases hd

@[simp] theorem kindOf_dirOf (k : Kind) : kindOf (dirOf k) = k := by cases k <;> rfl

/-- A TCP frame cut short is Incomplete: its head is not complete, or its length field says that bytes are missing (R148). -/
theorem tcpDecode_take_tcpEncode (q : Bool) {fr : Frame} (hwf : fr.wf = true) {j : Nat} (hj : j < (tcpEncode fr).length) :
    tcpDecode q (dirOf fr.kind) ((tcpEncode fr).take j) = .incomplete := by
  obtain ⟨-, -, -, hlen⟩ := (Frame.wf_iff fr).1 hwf
  have htake : ((tcpEncode fr).take j).length = j := List.length_take_of_le hj.le
  rw [tcpEncode_length] at hj
  by_cases h8 : j < 8
  · exact tcpDecode_of_head_missing q (by omega)
  · have hfb : byteAt ((tcpEncode fr).take j) 7 = fbyte fr.head := byteAt_take _ (by omega)
    have hfield : rdBe16 ((tcpEncode fr).take j) 4 = fr.head.length :=
      (rdBe16_take _ (by omega)).trans (rdBe16_tcpEncode_length fr)
    refine tcpDecode_of_body_missing q (f := fr.head.function) (exc := fr.head.isException) ?_ ?_ ?_
    · rw [hfb, classify_fbyte_of_wf hwf]
    · rw [hfield]; omega
    · rw [hfield, htake]; omega

/-- A TCP frame decodes to its value whatever follows it, where the quirk does not alter the value (R147, R148). -/
theorem tcpDecode_tcpEncode_append {q : Bool} {fr : Frame} (hwf : fr.wf = true) (hq : Claims.quirkFree q fr) (y : Bytes) :
    tcpDecode q (dirOf fr.kind) (tcpEncode fr ++ y) = .frame fr (tcpEncode fr).length := by
  obtain ⟨hshape, hreq, hvals, hlen⟩ := (Frame.wf_iff fr).1 hwf
  have hsize := tcpEncode_length fr
  have hword {i : Nat} {v : U16} (hi : i + 1 < 8) (hv : rdBe16 (tcpEncode fr) i = v) : rdBe16 (tcpEncode fr ++ y) i = v :=
    (rdBe16_append_left _ _ _ (by omega)).trans hv
  have htid := hword (by decide) (rdBe16_tcpEncode_transactionId fr)
  have hpid := hword (by decide) (rdBe16_tcpEncode_protocolId fr)
  have hfield := hword (by decide) (rdBe16_tcpEncode_length fr)
  have hfb : byteAt (tcpEncode fr ++ y) 7 = fbyte fr.head := rfl
  have hunit : byteAt (tcpEncode fr ++ y) 6 = fr.head.unitId := rfl
  have hbody : ((tcpEncode fr ++ y).drop 8).take (fr.head.length.toNat - 2) = encBody fr.body := by
    have hblen : fr.head.length.toNat - 2 = (encBody fr.body).length := by rw [encBody_length]; omega
    rw [hblen]
    exact List.take_left' rfl
  rw [tcpDecode_of_body_present q (hfb ▸ classify_fbyte_of_wf hwf)]
  · rw [hfield, hbody, parseBody_encBody q _ _ _ _ hshape hreq hvals hq]
    simp only [tcpParsed, htid, hpid, hfield, hunit, kindOf_dirOf]
    congr 1
    omega
  · rw [hfield]; omega
  · rw [hfield, List.length_append]; omega

/-- With the quirk no decode gives IllegalFunction (R64, R147). -/
theorem tcpDecode_ne_of_not_quirkFree {q : Bool} {fr : Frame} (hq : ¬ Claims.quirkFree q fr) (dir : Dir) (bs : Bytes)
    (n : Nat) : tcpDecode q dir bs ≠ .frame fr n := by
  obtain ⟨hquirk, hbody⟩ := not_or.1 hq
  rw [Bool.not_eq_false] at hquirk
  rw [not_not] at hbody
  subst hquirk
  intro h
  obtain ⟨f, exc, body, -, -, -, hp, rfl, -⟩ := tcpDecode_frame h
  exact parseBody_quirk_ne_illegalFunction ((show body = _ from hbody) ▸ hp)

end Sys2Proof

/-! ## The statements -/

namespace Sys2Proof.Proofs

open Sys2Proof.Machine

/-- Settles O36: a frame decodes with nothing after it; with the quirk no body parses as IllegalFunction. -/
theorem tcpRoundTrip : Obligations.TcpRoundTrip :=
  fun _ _ hwf => ⟨fun hq => by simpa using tcpDecode_tcpEncode_append hwf hq [],
    fun hq => tcpDecode_ne_of_not_quirkFree hq _ _ _⟩

/-- Settles O37: a frame cut short lacks part of its head, or bytes its length field announces; a whole frame is
all that is read. -/
theorem tcpPartialFrameStability : Obligations.TcpPartialFrameStability :=
  fun q _ hwf => ⟨fun _ hj => tcpDecode_take_tcpEncode q hwf hj, fun hq y => tcpDecode_tcpEncode_append hwf hq y⟩

/-- Settles O39: what `tcp_decode` has found when it returns a frame, and what WF says of it. -/
theorem tcpDecodedFramesAreWellFormed : Obligations.TcpDecodedFramesAreWellFormed := by
  intro q dir bs v n h
  have hwf := tcpDecode_wf h
  obtain ⟨-, hreq, hvals, hlen⟩ := (Frame.wf_iff v).1 hwf
  obtain ⟨f, exc, body, -, htwo, hbuf, -, rfl, rfl⟩ := tcpDecode_frame h
  have hn : 8 + ((rdBe16 bs 4).toNat - 2) = 6 + (rdBe16 bs 4).toNat := by omega
  exact ⟨hwf, hlen, hn, hbuf, hreq, hvals⟩

/-- Settles O42: kind and flag are the direction's and the function byte's, and a request classifies without the flag. -/
theorem decodedKindAndFlag : Obligations.DecodedKindAndFlag := by
  intro q bs x v n
  refine ⟨fun h => ?_, fun h => ?_, ?_, fun h => ?_, fun h => ?_⟩
  · obtain ⟨f, hc⟩ := tcpDecode_unrecognized h
    cases (classify_ok _ _ _ _ hc).2 rfl
  · obtain ⟨f, hc⟩ := rtuDecode_unrecognized h
    cases (classify_ok _ _ _ _ hc).2 rfl
  · rintro (h | h)
    · obtain ⟨f, exc, body, hc, -, -, -, rfl, -⟩ := tcpDecode_frame h
      exact ⟨rfl, (classify_ok _ _ _ _ hc).2 rfl⟩
    · obtain ⟨f, exc, bl, body, hc, -, -, -, -, rfl, -⟩ := rtuDecode_frame h
      exact ⟨rfl, (classify_ok _ _ _ _ hc).2 rfl⟩
  · obtain ⟨f, exc, body, hc, -, -, -, rfl, -⟩ := tcpDecode_frame h
    exact ⟨rfl, classify_flag hc⟩
  · obtain ⟨f, exc, bl, body, hc, -, -, -, -, rfl, -⟩ := rtuDecode_frame h
    exact ⟨rfl, classify_flag hc⟩

/-- Settles O43: one rule for each way the decode ends; the body parses as the length its function byte announces tells. -/
theorem tcpOutcomePriority : Obligations.TcpOutcomePriority := by
  intro q dir bs
  refine ⟨tcpDecode_of_head_missing q, fun hlen hl => tcpDecode_of_classify_error q hlen (classify_illegal hl),
    fun hlen hl hlt => ?_, fun hlen hl htwo hbuf => ?_, ?_⟩
  · obtain ⟨f, exc, hc⟩ := (classify_ok_iff_legal _ _).2 hl
    exact tcpDecode_of_length_lt_two q hc hlen hlt
  · obtain ⟨f, exc, hc⟩ := (classify_ok_iff_legal _ _).2 hl
    exact tcpDecode_of_body_missing q hc htwo hbuf
  · rintro f exc body hfb hl htwo - hbuf rfl
    have hc := classify_legal hfb hl
    have hreq := (classify_ok _ _ _ _ hc).2
    rw [tcpDecode_of_body_present q hc htwo hbuf]
    refine ⟨fun hb => ?_, ?_, fun hb hx => ?_⟩
    · rw [parseBody_of_bodyLength_ne q hreq hb, tcpParsed]
    · rintro hb rfl hx
      rw [parseBody_unrecognized dir f (length_of_bodyLength_exception hreq hb) hx, tcpParsed]
    · obtain ⟨b, hp⟩ := exists_parseBody hreq hb hx
      rw [hp]
      exact ⟨_, rfl, rfl, rfl, rfl, rfl, rfl, bodyRead_of_parseBody hreq (List.take_append_drop _ _).symm hp⟩

/-- Settles O34: the head is read back field by field, and the body follows it. -/
theorem encodeTcpReturnsTheWireBytes : Obligations.EncodeTcpReturnsTheWireBytes := by
  refine fun fr s => ⟨fun hwf => by simp [exec, execEncodeTcp, hwf], fun hwf => ?_⟩
  obtain ⟨-, -, hvals, -⟩ := (Frame.wf_iff fr).1 hwf
  have hword : ∀ k, Claims.u16At (tcpEncode fr) k (rdBe16 (tcpEncode fr) k) := u16At_rdBe16 _
  refine ⟨tcpEncode fr, ?_, ?_, ?_, ?_, rfl, rfl, rfl, tcpEncode_length fr, ?_⟩
  · simp only [exec, execEncodeTcp, hwf, if_true]; rfl
  · simpa using hword 0
  · simpa using hword 2
  · simpa using hword 4
  · exact bodyAt_of_drop hvals (y := []) (by simp)

/-- Settles O46: each of the four meanings returns its decoder's outcome. -/
theorem operandDecodesReturnTheOutcome : Obligations.OperandDecodesReturnTheOutcome :=
  fun _ _ => ⟨rfl, rfl, rfl, rfl⟩

end Sys2Proof.Proofs
end

section
/-! PROOFS. The family of spec/43_rtu_codec.md. First that the body length a head announces is settled by the body's first
bytes, whatever follows them; then one rule for each way `rtu_decode` ends, in terms of this length; then what these rules say
of the bytes ENCODE_RTU writes; last the statements, each a short use of these rules. -/

namespace Sys2Proof

/-! ## The announced body length -/

/-- A head announces a fixed body length, or one that is read from a count byte within the body (R75, R76). -/
theorem bodyLength_fixed_or_counted (dir : Dir) (f : Fn) (exc : Bool) :
    (∃ n, ∀ bd, bodyLength dir f exc bd = some n) ∨
    ∃ i k, i < k ∧ ∀ bd, bodyLength dir f exc bd = bd[i]?.map (fun c => c.toNat + k) := by
  cases hs : shapeFor (kindOf dir) f exc <;> simp only [bodyLength, hs]
  case writeMultiReq => exact .inr ⟨4, 5, by decide, fun bd => peek_eq_map bd 4 5⟩
  case readRsp => exact .inr ⟨0, 1, by decide, fun bd => peek_eq_map bd 0 1⟩
  all_goals exact .inl ⟨_, fun _ => rfl⟩

/-- A body length once announced does not change when bytes are appended (R75, R76). -/
theorem bodyLength_append {dir : Dir} {f : Fn} {exc : Bool} {bd : Bytes} {n : Nat} (h : bodyLength dir f exc bd = some n)
    (y : Bytes) : bodyLength dir f exc (bd ++ y) = some n := by
  obtain ⟨m, hfixed⟩ | ⟨i, k, -, hcount⟩ := bodyLength_fixed_or_counted dir f exc
  · rw [hfixed] at h ⊢; exact h
  · rw [hcount] at h ⊢
    obtain ⟨c, hc, rfl⟩ := Option.map_eq_some_iff.1 h
    rw [List.getElem?_append_left (List.getElem?_eq_some_iff.1 hc).1, h]

/-- The bytes taken for a body that is there in full have the length they announce (R164). -/
theorem bodyLength_take {dir : Dir} {f : Fn} {exc : Bool} {bd : Bytes} {n : Nat} (h : bodyLength dir f exc bd = some n)
    (hn : n ≤ bd.length) : bodyLength dir f exc (bd.take n) = some (bd.take n).length := by
  rw [List.length_take_of_le hn]
  obtain ⟨m, hfixed⟩ | ⟨i, k, hik, hcount⟩ := bodyLength_fixed_or_counted dir f exc
  · rw [hfixed] at h ⊢; exact h
  · rw [hcount] at h ⊢
    obtain ⟨c, -, rfl⟩ := Option.map_eq_some_iff.1 h
    rw [List.getElem?_take_of_lt (by omega), h]

/-- A body of the announced length is no mismatch (R74, R164). -/
theorem parseBody_ne_lengthMismatch {q : Bool} {dir : Dir} {f : Fn} {exc : Bool} {bd : Bytes} {n : Nat}
    (hreq : dir = .req → exc = false) (h : bodyLength dir f exc bd = some bd.length) :
    parseBody q dir f exc bd ≠ .error (.lengthMismatch n) := by
  by_cases hx : exc = true ∧ excDecode q (byteAt bd 0) = none
  · obtain ⟨rfl, hnone⟩ := hx
    rw [parseBody_unrecognized dir f (length_of_bodyLength_exception hreq h) hnone]
    simp
  · obtain ⟨b, hb⟩ := exists_parseBody hreq h fun he hnone => hx ⟨he, hnone⟩
    simp [hb]

/-- The encoding of a WF value's body announces its own length (R31, R73). -/
theorem bodyLength_encBody {fr : Frame} (hwf : fr.wf = true) :
    bodyLength (dirOf fr.kind) fr.head.function fr.head.isException (encBody fr.body) = some fr.body.blen := by
  obtain ⟨hshape, hreq, hvals, -⟩ := (Frame.wf_iff fr).1 hwf
  have hok := parseBody_encBody false _ _ _ _ hshape hreq hvals (.inl rfl)
  by_contra hne
  rw [← encBody_length] at hne
  rw [parseBody_of_bodyLength_ne false (classify_ok _ _ _ _ (classify_fbyte_of_wf hwf)).2 hne] at hok
  cases hok

/-! ## How `rtu_decode` ends -/

/-- The outcome `rtu_decode` gives a frame whose CRC is right, from its unit id and what its body parses as (R161). -/
def rtuParsed (dir : Dir) (unit : Byte) (f : Fn) (exc : Bool) (bl : Nat) : Except BodyError Body → DecodeOutcome
  | .error (.lengthMismatch n) => .error (.lengthMismatch (BitVec.ofNat 16 (2 + n)))
  | .error (.unrecognizedExceptionCode x) => .error (.unrecognizedExceptionCode x)
  | .ok body =>
    .frame
      { kind := kindOf dir,
        head := { transactionId := 0, protocolId := 0, length := BitVec.ofNat 16 (2 + bl),
                  unitId := unit, function := f, isException := exc },
        body := body }
      (4 + bl)

section
variable {dir : Dir} {bs : Bytes} {f : Fn} {exc : Bool} {bl : Nat} (q : Bool)

/-- Fewer than 2 bytes are Incomplete (R161). -/
theorem rtuDecode_of_head_missing (h : bs.length < 2) : rtuDecode q dir bs = .incomplete := by
  simp [rtuDecode, h]

variable (hc : classify dir (byteAt bs 1) = .ok (f, exc))
include hc

/-- After the head, the length R77 infers from the buffer is the one its body announces. -/
theorem rtuBlen_eq_bodyLength_drop (h2 : 2 ≤ bs.length) : rtuBlen dir f exc bs = bodyLength dir f exc (bs.drop 2) :=
  match bs, h2 with
  | u :: fb :: body, _ => rtuBlen_eq_bodyLength dir f (classify_ok _ _ _ _ hc).2 u fb body

/-- A body whose count byte is not there yet is Incomplete (R161). -/
theorem rtuDecode_of_count_missing (h2 : 2 ≤ bs.length) (hbl : bodyLength dir f exc (bs.drop 2) = none) :
    rtuDecode q dir bs = .incomplete := by
  simp [rtuDecode, Nat.not_lt.2 h2, hc, rtuBlen_eq_bodyLength_drop hc h2, hbl]

variable (hbl : bodyLength dir f exc (bs.drop 2) = some bl)
include hbl

/-- A body or a CRC that is not there in full is Incomplete (R161). -/
theorem rtuDecode_of_frame_missing (h2 : 2 ≤ bs.length) (h : bs.length < 4 + bl) : rtuDecode q dir bs = .incomplete := by
  have hcrc : bs.length < 2 + bl + 2 := by omega
  simp [rtuDecode, Nat.not_lt.2 h2, hc, rtuBlen_eq_bodyLength_drop hc h2, hbl, hcrc]

variable (hbuf : 4 + bl ≤ bs.length)
include hbuf

/-- A frame that is there in full with another CRC than its bytes' is an InvalidChecksum (R161). -/
theorem rtuDecode_of_crc_ne (h : crc16 (bs.take (2 + bl)) ≠ rdLe16 bs (2 + bl)) :
    rtuDecode q dir bs = .error (.invalidChecksum (rdLe16 bs (2 + bl))) := by
  refine rtuDecode_of_crcCheck_false q hc ((rtuBlen_eq_bodyLength_drop hc (by omega)).trans hbl) (by omega) ?_
  rw [crcCheck, slice_zero, decide_eq_false h]

/-- A frame that is there in full with its bytes' CRC ends as its body parses (R161). -/
theorem rtuDecode_of_crc_eq (h : crc16 (bs.take (2 + bl)) = rdLe16 bs (2 + bl)) : rtuDecode q dir bs =
    rtuParsed dir (byteAt bs 0) f exc bl (parseBody q dir f exc ((bs.drop 2).take bl)) := by
  have hhead : ¬ bs.length < 2 := by omega
  have hbody : ¬ bs.length < 2 + bl := by omega
  have hcrc : ¬ bs.length < 2 + bl + 2 := by omega
  have hcheck : crcCheck (slice bs 0 (2 + bl)) (rdLe16 bs (2 + bl)) = true := by
    rw [crcCheck, slice_zero, decide_eq_true h]
  have hslice : slice bs 2 (2 + bl) = (bs.drop 2).take bl := by rw [slice, Nat.add_sub_cancel_left]
  simp only [rtuDecode, if_neg hhead, hc, rtuBlen_eq_bodyLength_drop hc (Nat.not_lt.1 hhead), hbl, if_neg hbody,
    if_neg hcrc, hcheck, Bool.true_eq_false, if_false, hslice]
  rfl

end

/-- A body that is no mismatch gives no LengthMismatch. -/
theorem rtuParsed_ne_lengthMismatch {p : Except BodyError Body} (h : ∀ n, p ≠ .error (.lengthMismatch n)) (dir : Dir)
    (unit : Byte) (f : Fn) (exc : Bool) (bl : Nat) (len : U16) :
    rtuParsed dir unit f exc bl p ≠ .error (.lengthMismatch len) := by
  match p with
  | .error (.lengthMismatch n) => exact absurd rfl (h n)
  | .error (.unrecognizedExceptionCode x) => simp [rtuParsed]
  | .ok body => simp [rtuParsed]

/-- No way `rtu_decode` ends is a LengthMismatch: the body it passes on has the length it announces (R164). -/
theorem rtuDecode_ne_lengthMismatch (q : Bool) (dir : Dir) (bs : Bytes) (len : U16) :
    rtuDecode q dir bs ≠ .error (.lengthMismatch len) := by
  by_cases h2 : bs.length < 2
  · simp [rtuDecode_of_head_missing q h2]
  rw [Nat.not_lt] at h2
  match hc : classify dir (byteAt bs 1) with
  | .error e => simp [rtuDecode_of_classify_error q h2 hc, classify_error _ _ _ hc]
  | .ok (f, exc) =>
    cases hbl : bodyLength dir f exc (bs.drop 2) with
    | none => simp [rtuDecode_of_count_missing q hc h2 hbl]
    | some bl =>
      by_cases hbuf : bs.length < 4 + bl
      · simp [rtuDecode_of_frame_missing q hc hbl h2 hbuf]
      rw [Nat.not_lt] at hbuf
      by_cases hcrc : crc16 (bs.take (2 + bl)) = rdLe16 bs (2 + bl)
      · rw [rtuDecode_of_crc_eq q hc hbl hbuf hcrc]
        have hself := bodyLength_take hbl (by rw [List.length_drop]; omega)
        exact rtuParsed_ne_lengthMismatch (fun n => parseBody_ne_lengthMismatch (classify_ok _ _ _ _ hc).2 hself) _ _ _ _ _ _
      · simp [rtuDecode_of_crc_ne q hc hbl hbuf hcrc]

/-- With the quirk no decode gives IllegalFunction (R64, R168). -/
theorem quirkFree_of_rtuDecode {q : Bool} {dir : Dir} {bs : Bytes} {v : Frame} {n : Nat}
    (h : rtuDecode q dir bs = .frame v n) : Claims.quirkFree q v := by
  obtain ⟨f, exc, bl, body, -, -, -, -, hp, rfl, -⟩ := rtuDecode_frame h
  cases q with
  | false => exact .inl rfl
  | true => exact .inr fun hb => parseBody_quirk_ne_illegalFunction (hp.trans (congrArg _ hb))

/-! ## Decoding what ENCODE_RTU writes -/

@[simp] theorem rtuPayload_length (fr : Frame) : (rtuPayload fr).length = 2 + fr.body.blen := by
  simp [rtuPayload]; omega

/-- What follows the head is the body, then the CRC (R80). -/
theorem drop_rtuEncode (fr : Frame) : (rtuEncode fr).drop 2 = encBody fr.body ++ le16 (crc16 (rtuPayload fr)) := rfl

/-- The bytes before the CRC are those it covers (R80). -/
theorem take_rtuEncode (fr : Frame) : (rtuEncode fr).take (2 + fr.body.blen) = rtuPayload fr :=
  List.take_left' (rtuPayload_length fr)

/-- The CRC of an encoded frame is read back low byte first (R43, R80). -/
theorem rdLe16_rtuEncode (fr : Frame) : rdLe16 (rtuEncode fr) (2 + fr.body.blen) = crc16 (rtuPayload fr) :=
  rtuPayload_length fr ▸ rdLe16_append_le16 (rtuPayload fr) _

/-- A u16 read low byte first is its bytes' value (R43). -/
theorem rdLe16_toNat (w : Bytes) (i : Nat) : (rdLe16 w i).toNat = (byteAt w i).toNat + (byteAt w (i + 1)).toNat * 256 := by
  have hlo := (byteAt w i).isLt
  rw [rdLe16, BitVec.toNat_append, ← Nat.shiftLeft_add_eq_or_of_lt hlo, Nat.shiftLeft_eq, Nat.add_comm]

/-- An RTU frame ends as its own body parses, whatever follows it (R168). -/
theorem rtuDecode_rtuEncode_append (q : Bool) {fr : Frame} (hwf : fr.wf = true) (y : Bytes) :
    rtuDecode q (dirOf fr.kind) (rtuEncode fr ++ y) =
      rtuParsed (dirOf fr.kind) fr.head.unitId fr.head.function fr.head.isException fr.body.blen
        (parseBody q (dirOf fr.kind) fr.head.function fr.head.isException (encBody fr.body)) := by
  have hsize := rtuEncode_length fr
  have hdrop : (rtuEncode fr ++ y).drop 2 = encBody fr.body ++ (le16 (crc16 (rtuPayload fr)) ++ y) := by
    rw [List.drop_append_of_le_length (by omega), drop_rtuEncode, List.append_assoc]
  have hbl := hdrop ▸ bodyLength_append (bodyLength_encBody hwf) _
  have hcrc : crc16 ((rtuEncode fr ++ y).take (2 + fr.body.blen)) = rdLe16 (rtuEncode fr ++ y) (2 + fr.body.blen) := by
    rw [List.take_append_of_le_length (by omega), take_rtuEncode, rdLe16_append_left _ _ _ (by omega), rdLe16_rtuEncode]
  rw [rtuDecode_of_crc_eq q (classify_fbyte_of_wf hwf) hbl (by rw [List.length_append]; omega) hcrc, hdrop,
    List.take_left' (encBody_length _)]
  rfl

/-- An RTU frame decodes to its value with both ids 0, where the quirk does not alter the value (R168). -/
theorem rtuDecode_rtuEncode_append_eq_frame {q : Bool} {fr : Frame} (hwf : fr.wf = true) (hq : Claims.quirkFree q fr)
    (y : Bytes) :
    rtuDecode q (dirOf fr.kind) (rtuEncode fr ++ y) = .frame (Claims.received .rtu fr) (rtuEncode fr).length := by
  obtain ⟨hshape, hreq, hvals, hlen⟩ := (Frame.wf_iff fr).1 hwf
  have hfield : BitVec.ofNat 16 (2 + fr.body.blen) = fr.head.length := by rw [← hlen]; simp
  rw [rtuDecode_rtuEncode_append q hwf, parseBody_encBody q _ _ _ _ hshape hreq hvals hq, rtuEncode_length, rtuParsed,
    kindOf_dirOf, hfield]
  rfl

/-- An RTU frame cut short is Incomplete: its head, its count byte, or bytes it announces are missing (R168). -/
theorem rtuDecode_take_rtuEncode (q : Bool) {fr : Frame} (hwf : fr.wf = true) {j : Nat} (hj : j < (rtuEncode fr).length) :
    rtuDecode q (dirOf fr.kind) ((rtuEncode fr).take j) = .incomplete := by
  have htake : ((rtuEncode fr).take j).length = j := List.length_take_of_le hj.le
  by_cases h2 : j < 2
  · exact rtuDecode_of_head_missing q (by omega)
  rw [Nat.not_lt] at h2
  have hfb : byteAt ((rtuEncode fr).take j) 1 = fbyte fr.head := byteAt_take _ h2
  have hc := hfb ▸ classify_fbyte_of_wf hwf
  cases hbl : bodyLength (dirOf fr.kind) fr.head.function fr.head.isException (((rtuEncode fr).take j).drop 2) with
  | none => exact rtuDecode_of_count_missing q hc (by omega) hbl
  | some bl =>
    have hrest : ((rtuEncode fr).take j).drop 2 ++ (rtuEncode fr).drop j = (rtuEncode fr).drop 2 := by
      rw [← List.drop_append_of_le_length (by omega), List.take_append_drop]
    have hwhole : bodyLength (dirOf fr.kind) fr.head.function fr.head.isException ((rtuEncode fr).drop 2) =
        some fr.body.blen := bodyLength_append (bodyLength_encBody hwf) _
    have hsame : bl = fr.body.blen := Option.some.inj ((hrest ▸ bodyLength_append hbl _).symm.trans hwhole)
    rw [rtuEncode_length] at hj
    exact rtuDecode_of_frame_missing q hc hbl (by omega) (by omega)

/-- A value is unchanged by RTU exactly where it has no id to lose (R168). -/
theorem received_rtu_eq_self_iff (fr : Frame) :
    Claims.received .rtu fr = fr ↔ fr.head.transactionId = 0 ∧ fr.head.protocolId = 0 := by
  constructor
  · intro h
    rw [← h]
    exact ⟨rfl, rfl⟩
  · obtain ⟨kind, ⟨tid, pid, len, unit, f, exc⟩, body⟩ := fr
    dsimp only
    rintro ⟨rfl, rfl⟩
    rfl

end Sys2Proof

/-! ## The statements -/

namespace Sys2Proof.Proofs

open Sys2Proof.Machine

/-- Settles O38: a whole frame ends as its own body parses, whatever follows it; a frame cut short is Incomplete. -/
theorem rtuRoundTripAndStability : Obligations.RtuRoundTripAndStability := by
  refine fun q fr hwf => ⟨fun hq y => rtuDecode_rtuEncode_append_eq_frame hwf hq y,
    fun j hj => rtuDecode_take_rtuEncode q hwf hj, received_rtu_eq_self_iff fr, fun y => ?_,
    fun hq h => hq (quirkFree_of_rtuDecode (v := Claims.received .rtu fr) h)⟩
  calc rtuDecode q (dirOf fr.kind) (rtuEncode fr ++ y)
      = rtuDecode q (dirOf fr.kind) (rtuEncode fr ++ []) := by
        rw [rtuDecode_rtuEncode_append q hwf, rtuDecode_rtuEncode_append q hwf]
    _ = rtuDecode q (dirOf fr.kind) (rtuEncode fr) := by rw [List.append_nil]

/-- Settles O40: what `rtu_decode` has found when it returns a frame, and what WF says of it. -/
theorem rtuDecodedFramesAreWellFormed : Obligations.RtuDecodedFramesAreWellFormed := by
  intro q dir bs v n h
  have hwf := rtuDecode_wf h
  obtain ⟨-, -, -, hlen⟩ := (Frame.wf_iff v).1 hwf
  obtain ⟨f, exc, bl, body, hc, -, hbuf, -, hp, rfl, rfl⟩ := rtuDecode_frame h
  have hblen : body.blen = bl := by
    rw [(parseBody_ok (classify_ok _ _ _ _ hc).2 hp).1, slice_length]; omega
  exact ⟨hwf, hlen, by rw [hblen], by omega, rfl, rfl⟩

/-- Settles O41: the body that is parsed has the length it announces. -/
theorem rtuNeverRaisesLengthMismatch : Obligations.RtuNeverRaisesLengthMismatch := rtuDecode_ne_lengthMismatch

/-- Settles O44: one rule for each way the decode ends; the body that is parsed has the length it announces. -/
theorem rtuOutcomePriority : Obligations.RtuOutcomePriority := by
  intro q dir bs
  refine ⟨rtuDecode_of_head_missing q, fun h2 hl => rtuDecode_of_classify_error q h2 (classify_illegal hl),
    fun f exc h2 hfb hl => ?_⟩
  have hc := classify_legal hfb hl
  have hreq := (classify_ok _ _ _ _ hc).2
  refine ⟨rtuDecode_of_count_missing q hc h2, fun bl hbl => ⟨fun h => ?_, fun _ h => ?_, fun hbuf hcrc => ?_, ?_, ?_⟩⟩
  · exact rtuDecode_of_frame_missing q hc hbl h2 (by omega)
  · exact rtuDecode_of_frame_missing q hc hbl h2 h
  · exact rtuDecode_of_crc_ne q hc hbl hbuf hcrc
  all_goals
    intro hbuf hcrc
    have hself := bodyLength_take hbl (by rw [List.length_drop]; omega)
    have hpos := (rtuBlen_range ((rtuBlen_eq_bodyLength_drop hc h2).trans hbl)).1
    have hfirst : byteAt ((bs.drop 2).take bl) 0 = byteAt bs 2 := (byteAt_take _ hpos).trans (byteAt_drop bs 2 0)
    rw [rtuDecode_of_crc_eq q hc hbl hbuf hcrc, ← hfirst]
  · rintro rfl hx
    rw [parseBody_unrecognized dir f (length_of_bodyLength_exception hreq hself) hx, rtuParsed]
  · intro hx
    obtain ⟨b, hp⟩ := exists_parseBody hreq hself hx
    rw [hp]
    exact ⟨_, rfl, rfl, rfl, rfl, bodyRead_of_parseBody hreq (List.take_append_drop _ _).symm hp⟩

/-- Settles O35: the payload, then its CRC; only unit id, function byte and body enter them. -/
theorem encodeRtuReturnsTheWireBytes : Obligations.EncodeRtuReturnsTheWireBytes := by
  refine fun fr s => ⟨fun hwf => by simp [exec, execEncodeRtu, hwf], fun hwf => ?_⟩
  obtain ⟨-, -, hvals, -⟩ := (Frame.wf_iff fr).1 hwf
  refine ⟨rtuEncode fr, ?_, rfl, rfl, ?_, rtuEncode_length fr, bodyAt_of_drop hvals (drop_rtuEncode fr), ?_,
    fun _ _ _ => rfl⟩
  · simp only [exec, execEncodeRtu, hwf, if_true]; rfl
  · rw [drop_rtuEncode, List.take_left' (encBody_length _)]
  · rw [take_rtuEncode, ← rdLe16_rtuEncode, rdLe16_toNat, show 2 + fr.body.blen + 1 = 3 + fr.body.blen by omega]

end Sys2Proof.Proofs
end

section
/-! PROOFS. The family of spec/44_rx_stream.md. First that bytes appended to a buffer change no outcome but Incomplete, and what
they do to the phase; then what an RX_* operation of the owner leaves, one operation and several in a row; last the statements
themselves. -/

namespace Sys2Proof

/-! ## Appending bytes to a buffer -/

/-- An outcome of `tcp_decode` that is not Incomplete depends on the bytes of the frame alone (R187). -/
theorem tcpDecode_append {q : Bool} {dir : Dir} {bs : Bytes} (h : tcpDecode q dir bs ≠ .incomplete) (y : Bytes) :
    tcpDecode q dir (bs ++ y) = tcpDecode q dir bs := by
  have h8 : 8 ≤ bs.length := Nat.le_of_not_lt fun hlt => h (tcpDecode_of_head_missing q hlt)
  have hlen : (bs ++ y).length = bs.length + y.length := List.length_append
  have hfb : byteAt (bs ++ y) 7 = byteAt bs 7 := byteAt_append_left _ _ _ (by omega)
  have hfield : rdBe16 (bs ++ y) 4 = rdBe16 bs 4 := rdBe16_append_left _ _ _ (by omega)
  match hc : classify dir (byteAt bs 7) with
  | .error e => rw [tcpDecode_of_classify_error q h8 hc, tcpDecode_of_classify_error q (by omega) (hfb ▸ hc)]
  | .ok (f, exc) =>
    have hc' : classify dir (byteAt (bs ++ y) 7) = .ok (f, exc) := hfb ▸ hc
    by_cases htwo : (rdBe16 bs 4).toNat < 2
    · rw [tcpDecode_of_length_lt_two q hc h8 htwo, tcpDecode_of_length_lt_two q hc' (by omega) (hfield ▸ htwo), hfield]
    rw [Nat.not_lt] at htwo
    have hbuf : 6 + (rdBe16 bs 4).toNat ≤ bs.length :=
      Nat.le_of_not_lt fun hlt => h (tcpDecode_of_body_missing q hc htwo hlt)
    have hbody : ((bs ++ y).drop 8).take ((rdBe16 bs 4).toNat - 2) = (bs.drop 8).take ((rdBe16 bs 4).toNat - 2) := by
      rw [List.drop_append_of_le_length h8, List.take_append_of_le_length (by rw [List.length_drop]; omega)]
    rw [tcpDecode_of_body_present q hc htwo hbuf,
      tcpDecode_of_body_present q hc' (hfield ▸ htwo) (by rw [hfield]; omega), hfield, hbody]
    have htid : rdBe16 (bs ++ y) 0 = rdBe16 bs 0 := rdBe16_append_left _ _ _ (by omega)
    have hpid : rdBe16 (bs ++ y) 2 = rdBe16 bs 2 := rdBe16_append_left _ _ _ (by omega)
    have hunit : byteAt (bs ++ y) 6 = byteAt bs 6 := byteAt_append_left _ _ _ (by omega)
    unfold tcpParsed
    rw [htid, hpid, hfield, hunit]

/-- An outcome of `rtu_decode` that is not Incomplete depends on the bytes of the frame alone (R187). -/
theorem rtuDecode_append {q : Bool} {dir : Dir} {bs : Bytes} (h : rtuDecode q dir bs ≠ .incomplete) (y : Bytes) :
    rtuDecode q dir (bs ++ y) = rtuDecode q dir bs := by
  have h2 : 2 ≤ bs.length := Nat.le_of_not_lt fun hlt => h (rtuDecode_of_head_missing q hlt)
  have hlen : (bs ++ y).length = bs.length + y.length := List.length_append
  have hunit : byteAt (bs ++ y) 0 = byteAt bs 0 := byteAt_append_left _ _ _ (by omega)
  have hfb : byteAt (bs ++ y) 1 = byteAt bs 1 := byteAt_append_left _ _ _ (by omega)
  have hdrop : (bs ++ y).drop 2 = bs.drop 2 ++ y := List.drop_append_of_le_length h2
  match hc : classify dir (byteAt bs 1) with
  | .error e => rw [rtuDecode_of_classify_error q h2 hc, rtuDecode_of_classify_error q (by omega) (hfb ▸ hc)]
  | .ok (f, exc) =>
    have hc' : classify dir (byteAt (bs ++ y) 1) = .ok (f, exc) := hfb ▸ hc
    cases hbl : bodyLength dir f exc (bs.drop 2) with
    | none => exact absurd (rtuDecode_of_count_missing q hc h2 hbl) h
    | some bl =>
      have hbuf : 4 + bl ≤ bs.length := Nat.le_of_not_lt fun hlt => h (rtuDecode_of_frame_missing q hc hbl h2 hlt)
      have hbl' : bodyLength dir f exc ((bs ++ y).drop 2) = some bl := hdrop ▸ bodyLength_append hbl y
      have hcovered : (bs ++ y).take (2 + bl) = bs.take (2 + bl) := List.take_append_of_le_length (by omega)
      have hword : rdLe16 (bs ++ y) (2 + bl) = rdLe16 bs (2 + bl) := rdLe16_append_left _ _ _ (by omega)
      have hbody : ((bs ++ y).drop 2).take bl = (bs.drop 2).take bl := by
        rw [hdrop, List.take_append_of_le_length (by rw [List.length_drop]; omega)]
      by_cases hcrc : crc16 (bs.take (2 + bl)) = rdLe16 bs (2 + bl)
      · rw [rtuDecode_of_crc_eq q hc hbl hbuf hcrc,
          rtuDecode_of_crc_eq q hc' hbl' (by omega) (by rw [hcovered, hword, hcrc]), hunit, hbody]
      · rw [rtuDecode_of_crc_ne q hc hbl hbuf hcrc,
          rtuDecode_of_crc_ne q hc' hbl' (by omega) (by rwa [hcovered, hword]), hword]

/-- An outcome that is not Incomplete does not change when bytes are appended (R187). -/
theorem streamDecode_append {q : Bool} {proto : Proto} {dir : Dir} {bs : Bytes} (h : streamDecode q proto dir bs ≠ .incomplete)
    (y : Bytes) : streamDecode q proto dir (bs ++ y) = streamDecode q proto dir bs := by
  cases proto with
  | tcp => exact tcpDecode_append h y
  | rtu => exact rtuDecode_append h y

/-- A frame that is decoded lies within the buffer (R181). -/
theorem streamDecode_frame_le {q : Bool} {proto : Proto} {dir : Dir} {bs : Bytes} {v : Frame} {k : Nat}
    (h : streamDecode q proto dir bs = .frame v k) : k ≤ bs.length := by
  cases proto with
  | tcp =>
    obtain ⟨f, exc, body, -, -, hbuf, -, -, rfl⟩ := tcpDecode_frame h
    exact hbuf
  | rtu =>
    obtain ⟨f, exc, bl, body, -, -, hbuf, -, -, -, rfl⟩ := rtuDecode_frame h
    omega

@[simp] theorem dirOf_kindOf (dir : Dir) : dirOf (kindOf dir) = dir := by cases dir <;> rfl

/-- The encoding of a WF value decodes to what its framing carries of the value, whatever follows it (R147, R168). -/
theorem streamDecode_wireBytes_append {q : Bool} {dir : Dir} {fr : Frame} (proto : Proto) (hwf : fr.wf = true)
    (hkind : fr.kind = kindOf dir) (hq : Claims.quirkFree q fr) (y : Bytes) :
    streamDecode q proto dir (Claims.wireBytes proto fr ++ y) =
      .frame (Claims.received proto fr) (Claims.wireBytes proto fr).length := by
  obtain rfl : dirOf fr.kind = dir := hkind ▸ dirOf_kindOf dir
  cases proto with
  | tcp => exact tcpDecode_tcpEncode_append hwf hq y
  | rtu => exact rtuDecode_rtuEncode_append_eq_frame hwf hq y

/-! ## The phase -/

section
variable {q : Bool} {proto : Proto} {dir : Dir} {bs : Bytes}

theorem phase_of_frame {v : Frame} {k : Nat} (h : streamDecode q proto dir bs = .frame v k) :
    phase q proto dir bs = .complete := by simp [phase, h]

theorem phase_of_error {e : CodecError} (h : streamDecode q proto dir bs = .error e) : phase q proto dir bs = .error := by
  simp [phase, h]

theorem phase_tcp_of_incomplete (h : streamDecode q .tcp dir bs = .incomplete) :
    phase q .tcp dir bs = if bs.length < 8 then .awaitHead else .awaitBody := by simp [phase, h]

theorem phase_rtu_of_incomplete (h : streamDecode q .rtu dir bs = .incomplete) : phase q .rtu dir bs = rtuPhase dir bs := by
  simp [phase, h]

end

theorem rtuPhase_of_head_missing {bs : Bytes} (dir : Dir) (h : bs.length < 2) : rtuPhase dir bs = .awaitHead := if_pos h

section
variable {dir : Dir} {bs : Bytes} {f : Fn} {exc : Bool} (h2 : 2 ≤ bs.length) (hc : classify dir (byteAt bs 1) = .ok (f, exc))
include h2 hc

theorem rtuPhase_of_count_missing (hbl : rtuBlen dir f exc bs = none) : rtuPhase dir bs = .awaitCount := by
  simp [rtuPhase, Nat.not_lt.2 h2, hc, hbl]

theorem rtuPhase_of_count_present {bl : Nat} (hbl : rtuBlen dir f exc bs = some bl) :
    rtuPhase dir bs = if bs.length < 2 + bl then .awaitBody else .awaitCrc := by
  simp [rtuPhase, Nat.not_lt.2 h2, hc, hbl]

/-- A body length once known does not change when bytes are appended (R77). -/
theorem rtuBlen_append {bl : Nat} (hbl : rtuBlen dir f exc bs = some bl) (y : Bytes) :
    rtuBlen dir f exc (bs ++ y) = some bl := by
  have hfb : byteAt (bs ++ y) 1 = byteAt bs 1 := byteAt_append_left _ _ _ (by omega)
  rw [rtuBlen_eq_bodyLength_drop hc h2] at hbl
  rw [rtuBlen_eq_bodyLength_drop (hfb ▸ hc) (by rw [List.length_append]; omega), List.drop_append_of_le_length h2]
  exact bodyLength_append hbl y

end

/-- Of two phases the later one is reached at `n` bytes, so a longer buffer is not in an earlier phase (R185). -/
theorem code_ite_le {p p' : Phase} (hp : p.code ≤ p'.code) {m k : Nat} (hmk : m ≤ k) (n : Nat) :
    (if m < n then p else p').code ≤ (if k < n then p else p').code := by
  by_cases hk : k < n
  · rw [if_pos hk, if_pos (Nat.lt_of_le_of_lt hmk hk)]
  · rw [if_neg hk]
    split
    · exact hp
    · exact Nat.le_refl _

/-- An RTU buffer whose decode is Incomplete has no function byte yet, or one that classifies (R161). -/
theorem classify_of_rtuDecode_incomplete {q : Bool} {dir : Dir} {bs : Bytes} (h : rtuDecode q dir bs = .incomplete)
    (h2 : 2 ≤ bs.length) : ∃ f exc, classify dir (byteAt bs 1) = .ok (f, exc) := by
  match hc : classify dir (byteAt bs 1) with
  | .ok (f, exc) => exact ⟨f, exc, rfl⟩
  | .error e => rw [rtuDecode_of_classify_error q h2 hc] at h; cases h

/-- An incomplete RTU buffer awaits a part of the frame (R185). -/
theorem rtuPhase_code_le_three {q : Bool} {dir : Dir} {bs : Bytes} (h : rtuDecode q dir bs = .incomplete) :
    (rtuPhase dir bs).code ≤ 3 := by
  by_cases h2 : bs.length < 2
  · rw [rtuPhase_of_head_missing dir h2]; decide
  rw [Nat.not_lt] at h2
  obtain ⟨f, exc, hc⟩ := classify_of_rtuDecode_incomplete h h2
  cases hbl : rtuBlen dir f exc bs with
  | none => rw [rtuPhase_of_count_missing h2 hc hbl]; decide
  | some bl => rw [rtuPhase_of_count_present h2 hc hbl]; split <;> decide

/-- The phase of an incomplete RTU buffer only moves forward when bytes are appended (R186). -/
theorem rtuPhase_code_le_append {q : Bool} {dir : Dir} {bs : Bytes} (h : rtuDecode q dir bs = .incomplete) (y : Bytes) :
    (rtuPhase dir bs).code ≤ (rtuPhase dir (bs ++ y)).code := by
  have hlen : bs.length ≤ (bs ++ y).length := by simp
  by_cases h2 : bs.length < 2
  · rw [rtuPhase_of_head_missing dir h2]; exact Nat.zero_le _
  rw [Nat.not_lt] at h2
  obtain ⟨f, exc, hc⟩ := classify_of_rtuDecode_incomplete h h2
  have hc' : classify dir (byteAt (bs ++ y) 1) = .ok (f, exc) := byteAt_append_left bs y 1 h2 ▸ hc
  have h2' : 2 ≤ (bs ++ y).length := h2.trans hlen
  cases hbl : rtuBlen dir f exc bs with
  | some bl =>
    rw [rtuPhase_of_count_present h2 hc hbl, rtuPhase_of_count_present h2' hc' (rtuBlen_append h2 hc hbl y)]
    exact code_ite_le (by decide) hlen _
  | none =>
    rw [rtuPhase_of_count_missing h2 hc hbl]
    cases hbl' : rtuBlen dir f exc (bs ++ y) with
    | none => rw [rtuPhase_of_count_missing h2' hc' hbl']
    | some bl => rw [rtuPhase_of_count_present h2' hc' hbl']; split <;> decide

section
variable {q : Bool} {proto : Proto} {dir : Dir} {bs : Bytes}

/-- A buffer whose decode is Incomplete awaits a part of the frame (R185). -/
theorem phase_code_le_three (h : streamDecode q proto dir bs = .incomplete) : (phase q proto dir bs).code ≤ 3 := by
  cases proto with
  | tcp => rw [phase_tcp_of_incomplete h]; split <;> decide
  | rtu => rw [phase_rtu_of_incomplete h]; exact rtuPhase_code_le_three h

/-- A buffer whose decode is Incomplete is in neither of the two last phases (R185). -/
theorem phase_ne_of_incomplete {p : Phase} (h : streamDecode q proto dir bs = .incomplete) (hp : 3 < p.code) :
    phase q proto dir bs ≠ p := fun he => absurd (he ▸ phase_code_le_three h) (Nat.not_le.2 hp)

/-- COMPLETE is the phase of a buffer that decodes to a frame, and of no other (R185). -/
theorem phase_eq_complete_iff : phase q proto dir bs = .complete ↔ ∃ v k, streamDecode q proto dir bs = .frame v k := by
  cases hd : streamDecode q proto dir bs with
  | frame v k => simp [phase_of_frame hd]
  | error e => simp [phase_of_error hd]
  | incomplete => exact iff_of_false (phase_ne_of_incomplete hd (by decide)) (by simp)

/-- ERROR is the phase of a buffer that decodes to an error, and of no other (R185). -/
theorem phase_eq_error_iff : phase q proto dir bs = .error ↔ ∃ e, streamDecode q proto dir bs = .error e := by
  cases hd : streamDecode q proto dir bs with
  | frame v k => simp [phase_of_frame hd]
  | error e => simp [phase_of_error hd]
  | incomplete => exact iff_of_false (phase_ne_of_incomplete hd (by decide)) (by simp)

/-- COMPLETE and ERROR are absorbing under appended bytes (R186). -/
theorem phase_append (h : streamDecode q proto dir bs ≠ .incomplete) (y : Bytes) :
    phase q proto dir (bs ++ y) = phase q proto dir bs := by
  have hsame := streamDecode_append h y
  cases hd : streamDecode q proto dir bs with
  | incomplete => exact absurd hd h
  | frame v k => rw [phase_of_frame hd, phase_of_frame (hsame.trans hd)]
  | error e => rw [phase_of_error hd, phase_of_error (hsame.trans hd)]

end

/-- The phase only moves forward when bytes are appended (R186). -/
theorem phase_code_le_append (q : Bool) (proto : Proto) (dir : Dir) (bs y : Bytes) :
    (phase q proto dir bs).code ≤ (phase q proto dir (bs ++ y)).code := by
  by_cases h : streamDecode q proto dir bs = .incomplete
  · have hcode := phase_code_le_three h
    cases h' : streamDecode q proto dir (bs ++ y) with
    | frame v k => rw [phase_of_frame h']; exact hcode.trans (by decide)
    | error e => rw [phase_of_error h']; exact hcode.trans (by decide)
    | incomplete =>
      cases proto with
      | tcp =>
        rw [phase_tcp_of_incomplete h, phase_tcp_of_incomplete h']
        exact code_ite_le (by decide) (by simp) 8
      | rtu =>
        rw [phase_rtu_of_incomplete h, phase_rtu_of_incomplete h']
        exact rtuPhase_code_le_append h y
  · rw [phase_append h]

/-- A TCP stream has no count and no CRC to await (R185, R186). -/
theorem phase_tcp_ne_awaitCount_awaitCrc (q : Bool) (dir : Dir) (bs : Bytes) :
    phase q .tcp dir bs ≠ .awaitCount ∧ phase q .tcp dir bs ≠ .awaitCrc := by
  cases hd : streamDecode q .tcp dir bs with
  | frame v k => rw [phase_of_frame hd]; decide
  | error e => rw [phase_of_error hd]; decide
  | incomplete => rw [phase_tcp_of_incomplete hd]; split <;> decide

/-- An empty buffer awaits the head (R186). -/
theorem phase_nil (q : Bool) (proto : Proto) (dir : Dir) : phase q proto dir [] = .awaitHead := by
  cases proto <;> rfl

end Sys2Proof

namespace Sys2Proof.Machine

/-! ## The owner's operations on a stream -/

/-- The state in which stream `n`, that was `st`, holds `bs`, and the results `rs` were returned. -/
def State.withBuf (s : State) (n : Nat) (st : Stream) (bs : Bytes) (rs : List Result) : State :=
  { s with streams := s.streams.set n { st with buf := bs }, results := s.results ++ rs }

theorem State.withBuf_self {s : State} {n : Nat} {st : Stream} (h : s.streams[n]? = some st) (rs : List Result) :
    s.withBuf n st st.buf rs = { s with results := s.results ++ rs } :=
  congrArg (fun u : State => { u with results := s.results ++ rs }) (State.setBuf_self h)

theorem State.withBuf_withBuf (s : State) (n : Nat) (st : Stream) (bs bs' : Bytes) (rs rs' : List Result) :
    (s.withBuf n st bs rs).withBuf n { st with buf := bs } bs' rs' = s.withBuf n st bs' (rs ++ rs') := by
  simp [State.withBuf]

theorem State.withBuf_getElem?_self {s : State} {n : Nat} {st : Stream} (h : s.streams[n]? = some st) (bs : Bytes)
    (rs : List Result) : (s.withBuf n st bs rs).streams[n]? = some { st with buf := bs } :=
  List.getElem?_set_self (List.getElem?_eq_some_iff.1 h).1

section
variable {i : Instr} {n : Nat} {s : State} {st : Stream} {bs : Bytes} {r : Result}
variable (hi : streamTarget i = some n) (hst : s.streams[n]? = some st) (ho : st.owner = s.issuer)
  (he : streamEffect s st i = some (bs, r))
include hi hst ho he

/-- An RX_* operation of the owner has its effect on the stream and returns its result (R180 to R184). -/
theorem exec_stream_of_owner : exec i s = .next (s.withBuf n st bs [r]) :=
  (exec_stream_next hi).2 ⟨st, bs, r, hst, ho, he, rfl⟩

/-- A list of RX_* operations on one stream goes on from the buffer that the first of them leaves. -/
theorem execAll_stream_cons {is : List Instr} {bs' : Bytes} {rs : List Result}
    (hrest : Claims.execAll is (s.withBuf n st bs [r]) =
      .next ((s.withBuf n st bs [r]).withBuf n { st with buf := bs } bs' rs)) :
    Claims.execAll (i :: is) s = .next (s.withBuf n st bs' (r :: rs)) := by
  rw [State.withBuf_withBuf] at hrest
  exact execAll_cons_next.2 ⟨_, exec_stream_of_owner hi hst ho he, hrest⟩

end

/-- A push of at least one byte that fits joins the bytes to the end of the buffer (R180). -/
theorem streamEffect_rxPush {s : State} {st : Stream} {bs : Bytes} (n : Nat) (hne : bs ≠ [])
    (hfit : fitsCapacity s.rxCapacity (st.buf.length + bs.length) = true) :
    streamEffect s st (.rxPush n bs) = some (st.buf ++ bs, .unit) := if_pos ⟨hne, hfit⟩

/-- A discard of no more than the buffered bytes drops them from the front (R182). -/
theorem streamEffect_rxDiscard {st : Stream} {k : Nat} (s : State) (n : Nat) (hk : k ≤ st.buf.length) :
    streamEffect s st (.rxDiscard n k) = some (st.buf.drop k, .unit) := if_pos hk

/-- A decode returns its outcome and drops the bytes of a frame (R181). -/
theorem streamEffect_rxDecode {s : State} {st : Stream} {o : DecodeOutcome} (n : Nat)
    (h : streamDecode s.refExcQuirk st.proto st.dir st.buf = o) :
    streamEffect s st (.rxDecode n) = some (afterDecode o st.buf, .outcome o) := by
  subst h; rfl

/-- What a finite capacity says, for any capacity (R44). -/
theorem fitsCapacity_iff {cap : Option Nat} {k : Nat} : fitsCapacity cap k = true ↔ ∀ c, cap = some c → k ≤ c := by
  cases cap <;> simp [fitsCapacity]

/-- Pieces pushed one after another leave the buffer that pushing them together leaves (R180). -/
theorem execAll_rxPush (n : Nat) (xs : List Bytes) {s : State} {st : Stream} (hst : s.streams[n]? = some st)
    (ho : st.owner = s.issuer) (hne : ∀ x ∈ xs, x ≠ [])
    (hfit : fitsCapacity s.rxCapacity (st.buf.length + xs.flatten.length) = true) :
    Claims.execAll (xs.map (.rxPush n)) s =
      .next (s.withBuf n st (st.buf ++ xs.flatten) (List.replicate xs.length .unit)) := by
  induction xs generalizing s st with
  | nil => simp [Claims.execAll, State.withBuf_self hst]
  | cons x xs ih =>
    obtain ⟨hx, hxs⟩ := List.forall_mem_cons.1 hne
    rw [List.flatten_cons, List.length_append] at hfit
    have he := streamEffect_rxPush (st := st) n hx (fitsCapacity_mono hfit (by omega))
    have hrest := ih (State.withBuf_getElem?_self hst (st.buf ++ x) [.unit]) ho hxs
      (by rw [List.length_append, Nat.add_assoc]; exact hfit)
    rw [List.append_assoc] at hrest
    exact execAll_stream_cons rfl hst ho he hrest

/-- Frames back to back decode one after another, each with its own length (R188). -/
theorem execAll_rxDecode (n : Nat) (frs : List Frame) (tail : Bytes) {s : State} {st : Stream}
    (hst : s.streams[n]? = some st) (ho : st.owner = s.issuer)
    (hfrs : ∀ fr ∈ frs, fr.wf = true ∧ fr.kind = kindOf st.dir ∧ Claims.quirkFree s.refExcQuirk fr)
    (hbuf : st.buf = (frs.map (Claims.wireBytes st.proto)).flatten ++ tail) :
    Claims.execAll (List.replicate frs.length (.rxDecode n)) s = .next (s.withBuf n st tail
      (frs.map fun fr => .outcome (.frame (Claims.received st.proto fr) (Claims.wireBytes st.proto fr).length))) := by
  induction frs generalizing s st with
  | nil =>
    obtain rfl : st.buf = tail := hbuf
    simp [Claims.execAll, State.withBuf_self hst]
  | cons fr frs ih =>
    obtain ⟨⟨hwf, hkind, hq⟩, hfrs⟩ := List.forall_mem_cons.1 hfrs
    rw [List.map_cons, List.flatten_cons, List.append_assoc] at hbuf
    have hdecode := streamDecode_wireBytes_append st.proto hwf hkind hq ((frs.map (Claims.wireBytes st.proto)).flatten ++ tail)
    have he := streamEffect_rxDecode n (hbuf ▸ hdecode)
    rw [afterDecode, hbuf, List.drop_left] at he
    exact execAll_stream_cons rfl hst ho he (ih (State.withBuf_getElem?_self hst _ _) ho hfrs rfl)

end Sys2Proof.Machine

/-! ## The statements -/

namespace Sys2Proof.Proofs

open Sys2Proof.Machine

/-- Settles O57, by induction over the frames: each decodes whatever follows it, and leaves what follows it. -/
theorem backToBackFramesDecodeInOrder : Obligations.BackToBackFramesDecodeInOrder :=
  fun _ n _ frs tail hst ho hfrs hbuf => execAll_rxDecode n frs tail hst ho hfrs hbuf

/-- Settles O54: a decode that is not Incomplete stays what it is, and an incomplete buffer that grows lacks no part it had. -/
theorem phaseMovesForwardUnderPush : Obligations.PhaseMovesForwardUnderPush := by
  intro q proto dir bs y
  refine ⟨fun hp => ?_, fun hp => ?_, phase_code_le_append q proto dir bs y, phase_nil q proto dir,
    phase_tcp_ne_awaitCount_awaitCrc q dir bs⟩
  · obtain ⟨v, k, hd⟩ := phase_eq_complete_iff.1 hp
    rw [phase_append (by simp [hd]), hp]
  · obtain ⟨e, hd⟩ := phase_eq_error_iff.1 hp
    rw [phase_append (by simp [hd]), hp]

/-- Settles O55: every decode but an Incomplete one has read the whole frame, or the part that makes it an error. -/
theorem decodeIsPrefixStable : Obligations.DecodeIsPrefixStable := fun _ _ _ _ y h => streamDecode_append h y

/-- Settles O47, the split into pieces by induction over the pieces. -/
theorem rxPushAppends : Obligations.RxPushAppends := by
  intro s n st bs hst ho hne hcap
  have hfit := fitsCapacity_iff.2 hcap
  refine ⟨exec_stream_of_owner rfl hst ho (streamEffect_rxPush n hne hfit), ?_⟩
  rintro xs hxs rfl
  exact execAll_rxPush n xs hst ho hxs hfit

/-- Settles O48: a decode leaves the bytes after a frame, and the whole buffer otherwise. -/
theorem rxDecodeConsumesOnlyAFrame : Obligations.RxDecodeConsumesOnlyAFrame := by
  intro s n st hst ho
  have hdecode {o : DecodeOutcome} (hd : streamDecode s.refExcQuirk st.proto st.dir st.buf = o) :=
    exec_stream_of_owner rfl hst ho (streamEffect_rxDecode n hd)
  refine ⟨fun v k hd => ⟨streamDecode_frame_le hd, hdecode hd⟩, fun hd => ?_, fun e hd => ?_⟩
  · rw [hdecode hd]
    exact congrArg _ (State.withBuf_self hst _)
  · rw [hdecode hd]
    exact congrArg _ (State.withBuf_self hst _)

/-- Settles O49: a flush and a discard of everything leave the same empty buffer. -/
theorem rxDiscardAndFlushDropBytes : Obligations.RxDiscardAndFlushDropBytes := by
  intro s n k st hst ho
  have hdiscard {j : Nat} (hj : j ≤ st.buf.length) : exec (.rxDiscard n j) s = .next (s.withBuf n st (st.buf.drop j) [.unit]) :=
    exec_stream_of_owner rfl hst ho (streamEffect_rxDiscard s n hj)
  have hflush : exec (.rxFlush n) s = .next (s.withBuf n st [] [.unit]) := exec_stream_of_owner rfl hst ho rfl
  refine ⟨hdiscard, ?_, ?_, hflush⟩
  · rw [hdiscard (Nat.zero_le _), List.drop_zero, State.withBuf_self hst]
    rfl
  · rw [hdiscard (Nat.le_refl _), List.drop_length, hflush]

/-- Settles O50: RX_STATUS writes back the buffer it found; its phase is the one of R185, case by case. -/
theorem rxStatusReportsLengthAndPhase : Obligations.RxStatusReportsLengthAndPhase := by
  intro s n ⟨proto, dir, owner, buf⟩ hst ho
  refine ⟨phase s.refExcQuirk proto dir buf, ?_, phase_eq_complete_iff, phase_eq_error_iff, fun hd => ⟨?_, ?_, ?_⟩⟩
  · rw [exec_stream_of_owner rfl hst ho rfl]
    exact congrArg _ (State.withBuf_self hst _)
  · rintro rfl
    exact phase_tcp_of_incomplete hd
  · rintro rfl h
    exact (phase_rtu_of_incomplete hd).trans (rtuPhase_of_head_missing dir h)
  · rintro f exc rfl h2 hc
    rw [phase_rtu_of_incomplete hd]
    exact ⟨rtuPhase_of_count_missing h2 hc, fun _ => rtuPhase_of_count_present h2 hc⟩

end Sys2Proof.Proofs
end

section
/-! PROOFS. The family of spec/60_exceptions.md. First what one step of a run does with a refusal and with the mark it
finds; then that any number of steps keeps the mark; last the statement itself. -/

namespace Sys2Proof.Machine

/-! ## The refusal mark of a run -/

/-- A refused operation leaves the port and nothing else changes; the mark keeps the reason it had, or takes this one
(R210; log 6). -/
theorem Run.step_of_refused {r : Run} {e : Refusal} (h : Machine.step r.state = .refused e) :
    r.step = { state := r.state.dropIssue, mark := some (r.mark.getD e) } := by
  rw [Run.step, h]

/-- A step keeps a mark that is set, whatever the operation does: only a refusal writes the mark, and it writes back the
reason it finds. -/
theorem Run.step_mark {r : Run} {e : Refusal} (hr : r.mark = some e) : r.step.mark = some e := by
  cases h : Machine.step r.state with
  | next s' => rwa [Run.step, h]
  | fault f => cases f
  | refused e' => rw [Run.step_of_refused h, hr, Option.getD_some]

/-- A mark that is set stays for the rest of the run (R210). -/
theorem Run.steps_mark (k : Nat) {r : Run} {e : Refusal} (hr : r.mark = some e) : (r.steps k).mark = some e := by
  induction k generalizing r with
  | zero => exact hr
  | succ k ih => exact ih (Run.step_mark hr)

end Sys2Proof.Machine

/-! ## The statements -/

namespace Sys2Proof.Proofs

open Sys2Proof.Machine

/-- Settles O6: a refusal only drops the issue at the head of the port, and the mark is kept by induction over the steps. -/
theorem refusalMarkIsKept : Obligations.RefusalMarkIsKept := by
  refine ⟨fun r e h => ?_, fun r k e hr => Run.steps_mark k hr⟩
  rw [Run.step_of_refused h]
  exact ⟨rfl, State.dropIssue_builders _, State.dropIssue_streams _, State.dropIssue_results _, State.dropIssue_config _,
    State.dropIssue_pending _⟩

end Sys2Proof.Proofs
end

section
/-! PROOFS. The family of spec/70_reset_and_hazards.md. First that no body announces more bytes than an RTU frame holds, and what
this says of a buffer that waits; then what RESET leaves, and that a stream whose decode is an error keeps it; last the
statements themselves. -/

namespace Sys2Proof

/-! ## How long a buffer can wait -/

/-- A body announces at most the count byte's 255 values and the five bytes before them (R75, R76). -/
theorem bodyLength_le {dir : Dir} {f : Fn} {exc : Bool} {bd : Bytes} {n : Nat} (h : bodyLength dir f exc bd = some n) :
    n ≤ 260 := by
  have hcount4 := (byteAt bd 4).isLt
  have hcount0 := (byteAt bd 0).isLt
  cases hs : shapeFor (kindOf dir) f exc <;> simp only [bodyLength, hs, Option.ite_none_right_eq_some, Option.some.injEq] at h <;>
    omega

/-- Five bytes of a body announce its length: the latest count byte is the fifth (R75, R76). -/
theorem exists_bodyLength_of_five_le (dir : Dir) (f : Fn) (exc : Bool) {bd : Bytes} (h : 5 ≤ bd.length) :
    ∃ n, bodyLength dir f exc bd = some n := by
  cases hs : shapeFor (kindOf dir) f exc <;> simp only [bodyLength, hs]
  case writeMultiReq => exact ⟨_, if_pos h⟩
  case readRsp => exact ⟨_, if_pos (by omega)⟩
  all_goals exact ⟨_, rfl⟩

/-- A frame whose CRC is right is not Incomplete, whatever its body parses as (R161). -/
theorem rtuParsed_ne_incomplete (dir : Dir) (unit : Byte) (f : Fn) (exc : Bool) (bl : Nat) (p : Except BodyError Body) :
    rtuParsed dir unit f exc bl p ≠ .incomplete := by
  match p with
  | .error (.lengthMismatch n) => simp [rtuParsed]
  | .error (.unrecognizedExceptionCode x) => simp [rtuParsed]
  | .ok body => simp [rtuParsed]

/-- 264 bytes are never Incomplete in RTU: they hold the count byte, the longest body it can announce, and the CRC (R77, R226). -/
theorem rtuDecode_ne_incomplete (q : Bool) (dir : Dir) {bs : Bytes} (h : 264 ≤ bs.length) : rtuDecode q dir bs ≠ .incomplete := by
  intro hinc
  obtain ⟨f, exc, hc⟩ := classify_of_rtuDecode_incomplete hinc (by omega)
  obtain ⟨bl, hbl⟩ := exists_bodyLength_of_five_le dir f exc (bd := bs.drop 2) (by rw [List.length_drop]; omega)
  have hbuf : 4 + bl ≤ bs.length := by have hle := bodyLength_le hbl; omega
  by_cases hcrc : crc16 (bs.take (2 + bl)) = rdLe16 bs (2 + bl)
  · rw [rtuDecode_of_crc_eq q hc hbl hbuf hcrc] at hinc
    exact rtuParsed_ne_incomplete _ _ _ _ _ _ hinc
  · rw [rtuDecode_of_crc_ne q hc hbl hbuf hcrc] at hinc
    cases hinc

/-- A TCP frame that is there in full with more than 260 bytes of body is a mismatch: no body announces so many (R74, R142). -/
theorem tcpDecode_of_body_too_long {dir : Dir} {bs : Bytes} {f : Fn} {exc : Bool} (q : Bool)
    (hc : classify dir (byteAt bs 7) = .ok (f, exc)) (hlong : 262 < (rdBe16 bs 4).toNat)
    (hbuf : 6 + (rdBe16 bs 4).toNat ≤ bs.length) : tcpDecode q dir bs = .error (.lengthMismatch (rdBe16 bs 4)) := by
  have hlen : ((bs.drop 8).take ((rdBe16 bs 4).toNat - 2)).length = (rdBe16 bs 4).toNat - 2 :=
    List.length_take_of_le (by rw [List.length_drop]; omega)
  have hne : bodyLength dir f exc ((bs.drop 8).take ((rdBe16 bs 4).toNat - 2)) ≠
      some ((bs.drop 8).take ((rdBe16 bs 4).toNat - 2)).length := by
    intro h
    have hle := bodyLength_le h
    omega
  rw [tcpDecode_of_body_present q hc (by omega) hbuf, parseBody_of_bodyLength_ne q (classify_ok _ _ _ _ hc).2 hne, tcpParsed]

end Sys2Proof

namespace Sys2Proof.Machine

/-! ## RESET -/

/-- RESET leaves every table entry 0 and every buffer empty (R220). -/
theorem exec_reset_clears {s t : State} (h : exec .reset s = .next t) :
    (∀ bl ∈ t.builders, ∀ u : Byte, bl.tids.last u = 0) ∧ ∀ st ∈ t.streams, st.buf = [] := by
  cases h
  constructor
  · intro bl hbl u
    obtain ⟨bl', -, rfl⟩ := List.mem_map.1 hbl
    exact TidTable.last_fresh u
  · intro st hst
    obtain ⟨st', -, rfl⟩ := List.mem_map.1 hst
    exact Stream.cleared_buf st'

/-! ## A stream that holds an error -/

/-- Stream `n`, of owner `a`, decodes to the error `e`. -/
def State.HoldsError (s : State) (n : Nat) (a : Agent) (e : CodecError) : Prop :=
  ∃ st, s.streams[n]? = some st ∧ st.owner = a ∧ streamDecode s.refExcQuirk st.proto st.dir st.buf = .error e

/-- Whether a stream holds an error does not depend on the agent whose operation is executed. -/
theorem State.HoldsError.with_issuer {s : State} {n : Nat} {a : Agent} {e : CodecError} (hs : s.HoldsError n a e) (b : Agent) :
    ({ s with issuer := b } : State).HoldsError n a e := hs

/-- No operation writes the quirk: it is part of the configuration (R23). -/
theorem exec_refExcQuirk {i : Instr} {s t : State} (h : exec i s = .next t) : t.refExcQuirk = s.refExcQuirk :=
  congrArg Config.refExcQuirk (exec_config h)

/-- On a stream that holds an error, an RX_* operation that is no RX_FLUSH and no RX_DISCARD only appends bytes, or none
(R180, R181, R184). -/
theorem streamEffect_appends_of_error {s : State} {st : Stream} {i : Instr} {n : Nat} {bs : Bytes} {r : Result} {e : CodecError}
    (hi : streamTarget i = some n) (hd : streamDecode s.refExcQuirk st.proto st.dir st.buf = .error e)
    (hflush : i ≠ .rxFlush n) (hdiscard : ∀ k, i ≠ .rxDiscard n k) (he : streamEffect s st i = some (bs, r)) :
    ∃ y, bs = st.buf ++ y := by
  cases i <;> simp only [streamTarget, Option.some.injEq, reduceCtorEq] at hi <;> subst hi
  case rxPush n pushed =>
    simp only [streamEffect, Option.ite_none_right_eq_some, Option.some.injEq, Prod.mk.injEq] at he
    obtain ⟨-, rfl, -⟩ := he
    exact ⟨pushed, rfl⟩
  case rxDecode n =>
    rw [streamEffect_rxDecode n hd] at he
    cases he
    exact ⟨[], (List.append_nil _).symm⟩
  case rxDiscard n k => exact absurd rfl (hdiscard k)
  case rxFlush n => exact absurd rfl hflush
  case rxStatus n =>
    cases he
    exact ⟨[], (List.append_nil _).symm⟩

/-- Every operation but RESET, and RX_FLUSH and RX_DISCARD of the stream itself, leaves a stream's error in front (R227). -/
theorem State.HoldsError.of_exec {i : Instr} {n : Nat} {a : Agent} {e : CodecError} {s t : State} (hs : s.HoldsError n a e)
    (hreset : i ≠ .reset) (hflush : i ≠ .rxFlush n) (hdiscard : ∀ k, i ≠ .rxDiscard n k) (h : exec i s = .next t) :
    t.HoldsError n a e := by
  obtain ⟨st, hst, ho, hd⟩ := hs
  have hq := exec_refExcQuirk h
  cases hi : streamTarget i with
  | none => exact ⟨st, by rw [(exec_ignores_streams hi hreset h).1, hst], ho, by rw [hq, hd]⟩
  | some m =>
    obtain ⟨stm, bs, r, hstm, -, he, rfl⟩ := (exec_stream_next hi).1 h
    by_cases hm : m = n
    · subst hm
      cases hst.symm.trans hstm
      obtain ⟨y, rfl⟩ := streamEffect_appends_of_error hi hd hflush hdiscard he
      exact ⟨_, State.withBuf_getElem?_self hst _ [r], ho, (streamDecode_append (by simp [hd]) y).trans hd⟩
    · exact ⟨st, (List.getElem?_set_ne hm).trans hst, ho, hd⟩

/-- An agent's instruction, then the others, each under its own agent. -/
theorem execIssued_cons_next {a : Agent} {i : Instr} {is : List (Agent × Instr)} {s t : State} :
    Claims.execIssued ((a, i) :: is) s = .next t ↔
      ∃ s', exec i { s with issuer := a } = .next s' ∧ Claims.execIssued is s' = .next t := by
  rw [Claims.execIssued]
  cases exec i { s with issuer := a } with
  | next s' => simp
  | fault e => cases e
  | refused r => simp

/-- Whatever agents execute that removes no bytes of a stream leaves its error in front (R227). -/
theorem State.HoldsError.of_execIssued {n : Nat} {a : Agent} {e : CodecError} (is : List (Agent × Instr)) {s t : State}
    (hs : s.HoldsError n a e) (his : ∀ i ∈ is, i.2 ≠ .reset ∧ i.2 ≠ .rxFlush n ∧ ∀ k, i.2 ≠ .rxDiscard n k)
    (h : Claims.execIssued is s = .next t) : t.HoldsError n a e := by
  induction is generalizing s with
  | nil => cases h; exact hs
  | cons i is ih =>
    obtain ⟨s', hi, hrest⟩ := execIssued_cons_next.1 h
    obtain ⟨⟨hreset, hflush, hdiscard⟩, his⟩ := List.forall_mem_cons.1 his
    exact ih ((hs.with_issuer i.1).of_exec hreset hflush hdiscard hi) his hrest

/-- An RX_DECODE by the owner of a stream that holds an error answers it and changes nothing (R181, R227). -/
theorem State.HoldsError.exec_rxDecode {n : Nat} {e : CodecError} {s : State} (hs : s.HoldsError n s.issuer e) :
    exec (.rxDecode n) s = .next (Claims.returning s (.outcome (.error e))) := by
  obtain ⟨st, hst, ho, hd⟩ := hs
  rw [exec_stream_of_owner rfl hst ho (streamEffect_rxDecode n hd)]
  exact congrArg _ (State.withBuf_self hst _)

/-- RX_DECODEs in a row by the owner of a stream that holds an error answer it every time and change nothing (R227). -/
theorem State.HoldsError.execAll_rxDecode {n : Nat} {e : CodecError} (k : Nat) {s : State} (hs : s.HoldsError n s.issuer e) :
    Claims.execAll (List.replicate k (.rxDecode n)) s =
      .next { s with results := s.results ++ List.replicate k (.outcome (.error e)) } := by
  induction k generalizing s with
  | zero => simp [Claims.execAll]
  | succ k ih =>
    have hs' : (Claims.returning s (.outcome (.error e))).HoldsError n s.issuer e := hs
    rw [List.replicate_succ]
    refine execAll_cons_next.2 ⟨_, hs.exec_rxDecode, ?_⟩
    rw [ih hs']
    simp [Claims.returning, List.replicate_succ]

end Sys2Proof.Machine

/-! ## The statements -/

namespace Sys2Proof.Proofs

open Sys2Proof.Machine

/-- Settles O56: no instruction of the list removes bytes of the stream, so by induction over the list its error stays in
front, and there the owner's RX_DECODE finds it. -/
theorem errorPersistsUntilBytesAreRemoved : Obligations.ErrorPersistsUntilBytesAreRemoved := by
  intro s n st e hst hd
  have hs : s.HoldsError n st.owner e := ⟨st, hst, rfl, hd⟩
  refine ⟨fun is t his h => ?_, fun ho k => ?_⟩
  · have ht : t.HoldsError n st.owner e := hs.of_execIssued is his h
    exact (ht.with_issuer st.owner).exec_rxDecode
  · exact State.HoldsError.execAll_rxDecode k (ho ▸ hs)

/-- Settles O10: the cleared table has no id for any unit, so the next one is `nextTid 0`. -/
theorem resetClearsTablesAndBuffers : Obligations.ResetClearsTablesAndBuffers := by
  refine ⟨fun _ => rfl, fun s => ⟨_, rfl, exec_config (i := .reset) rfl, ?_⟩⟩
  obtain ⟨htables, hbuffers⟩ := exec_reset_clears (s := s) rfl
  refine ⟨htables, hbuffers, rfl, rfl, rfl, fun i b u bl t' hi hbl hm h => ?_⟩
  obtain ⟨fr, -, hres, -, -, hid, -⟩ := exec_build_tcp hi hbl hm h
  refine ⟨fr, hres, ?_⟩
  rw [hid, htables bl (List.mem_of_getElem? hbl) u]
  decide

/-- Settles O58: a length of 0xFFFF is a frame of 65541 bytes, with a body longer than any that parses. -/
theorem lengthStallIsBounded : Obligations.LengthStallIsBounded := by
  refine fun q dir bs => ⟨fun hl hfield => ?_, rtuDecode_ne_incomplete q dir⟩
  obtain ⟨f, exc, hc⟩ := (classify_ok_iff_legal _ _).2 hl
  have hmax : (rdBe16 bs 4).toNat = 65535 := congrArg BitVec.toNat hfield
  refine ⟨fun hlt => tcpDecode_of_body_missing q hc (by omega) (by omega), fun hge => ?_⟩
  rw [tcpDecode_of_body_too_long q hc (by omega) (by omega), hfield]

end Sys2Proof.Proofs
end
